-- ==== Sys2Proof/Word.lean ====
section
/-! DEFINITION. The word a port carries, the plain names the whole model uses, and nothing a test could show wrong. -/

namespace Sys2Proof

/-- One port word: every word is exactly 64 bits (`30_encoding.md` R90). -/
abbrev Word := BitVec 64

/-- A callback handle, 32 bits; 0 means none (`10_state.md` R36). -/
abbrev Handle := BitVec 32

/-- The identity of a logical interrupt source: ids 0 to 31 (`00_scope.md` R10 `N_ID`, R17). -/
abbrev SourceId := Fin 32

/-- Every identity in ascending order, the order the scanner examines them in (`44_dispatch.md` R202). -/
abbrev allSources : List SourceId := List.finRange 32

/-- The two priority levels (`10_state.md` R35; `44_dispatch.md` R191). -/
inductive Level where
  | low
  | high
  deriving DecidableEq, Repr

/-- The three input ports (`30_encoding.md` R92). -/
inductive Port where
  /-- The words of the foreground and of callbacks. -/
  | command
  /-- The CPU's dispatch entries. -/
  | vector
  /-- The environment's events. -/
  | stimulus
  deriving DecidableEq, Repr

end Sys2Proof
end

