-- ==== Sys2Proof/Config.lean ====
section
/-! DEFINITION. The types of the parameter record (`00_scope.md` R10). The functions over it and the
reference record RC1 stand in `Sys2Proof/Machine/Configuration.lean`. The spec leaves no value of the block free,
so there is no opaque constant here. -/

namespace Sys2Proof

/-- The width of a timer counter, `W(s)`: 8 or 16 bits (R10). -/
inductive TimerWidth where
  | bits8
  | bits16
  deriving DecidableEq, Repr

/-- What R10 gives a TIMER id: `W(s)`, `PSET(s)`, `QSET(s)` and `EXTOK(s)`. The two finite sets are lists; the order
and repetition of their members do not matter (`41_calculator.md` R126 sorts their products). -/
structure TimerParams where
  width : TimerWidth
  pset  : List Nat
  qset  : List Nat
  extok : Bool
  deriving DecidableEq, Repr

/-- `PRESENT(s)` and `CLASS(s)` of one identity, with the timer parameters where the class is TIMER (R10). -/
inductive Slot where
  | absent
  | timer (t : TimerParams)
  | event
  | portChange
  deriving DecidableEq, Repr

/-- The parameter record of R10, fixed for a whole run (`10_state.md` R59). -/
structure Params where
  /-- `FPB`, the peripheral clock frequency in hertz, 1 to 2^32 - 1. -/
  fpb     : Nat
  /-- `IP_RESET`, the reset value of every priority field. -/
  ipReset : Level
  /-- One slot for each identity 0 to 31. -/
  slots   : Vector Slot 32
  deriving DecidableEq, Repr

end Sys2Proof
end

