-- ==== Sys2Proof/Machine/Configuration.lean ====
section
/-! DEFINITION. The functions over the parameter record, the constraint a record must satisfy (`00_scope.md` R10, R11, R12)
and the reference record RC1 (R12). -/

namespace Sys2Proof

/-- `MAXW = 2^W(s) - 1` (`41_calculator.md` R125). -/
def TimerWidth.maxw : TimerWidth → Nat
  | .bits8 => 0xFF
  | .bits16 => 0xFFFF

/-- `MAXW` as a counter value. -/
def TimerWidth.top (w : TimerWidth) : BitVec 16 := BitVec.ofNat 16 w.maxw

/-- `v[W(s)-1:0]`, kept in a 16-bit field (`42_registration.md` R152, `44_dispatch.md` R198). -/
def TimerWidth.trunc (w : TimerWidth) (v : BitVec 16) : BitVec 16 := v &&& w.top

/-- The slot of one identity. -/
def Params.slot (p : Params) (s : SourceId) : Slot := p.slots[s]

/-- `PRESENT(s)` (R10). -/
def Params.present (p : Params) (s : SourceId) : Bool :=
  match p.slot s with
  | .absent => false
  | .timer _ => true
  | .event => true
  | .portChange => true

/-- The timer parameters of `s`, where `CLASS(s) = TIMER`. -/
def Params.timer? (p : Params) (s : SourceId) : Option TimerParams :=
  match p.slot s with
  | .timer t => some t
  | .absent => none
  | .event => none
  | .portChange => none

/-- The PORTCHANGE source, where one is present (R12: at most one). -/
def Params.portChange? (p : Params) : Option SourceId :=
  allSources.find? fun s => p.slot s = .portChange

/-- The order of the candidate list: product ascending, then `q` ascending (`41_calculator.md` R126). -/
abbrev pairLe (a b : Nat × Nat) : Prop :=
  a.1 * a.2 < b.1 * b.2 ∨ (a.1 * a.2 = b.1 * b.2 ∧ a.2 ≤ b.2)

/-- `PAIRS(s)`, the sorted candidate list (`41_calculator.md` R126). -/
def TimerParams.pairs (t : TimerParams) : List (Nat × Nat) :=
  (t.pset.flatMap fun p => t.qset.map fun q => (p, q)).insertionSort pairLe

/-- Each product is at most `m` times the product before it (R11), for products listed in ascending order. -/
def stepsAtMost (m : Nat) : List Nat → Bool
  | [] => true
  | [_] => true
  | a :: b :: rest => decide (b ≤ m * a) && stepsAtMost m (b :: rest)

/-- R11 for one TIMER id. -/
def TimerParams.meetsR11 (t : TimerParams) : Bool :=
  decide (1 ∈ t.pset) && decide (1 ∈ t.qset)
    && t.pset.all (fun p => decide (1 ≤ p)) && t.qset.all (fun q => decide (1 ≤ q))
    && stepsAtMost t.width.maxw (t.pairs.map fun c => c.1 * c.2)

/-- R11, and the 16-bit width of `PS` and `QS` (`10_state.md` R40, R41): a divider that its register cannot hold makes no block
(log entry 3). -/
def TimerParams.wf (t : TimerParams) : Bool :=
  t.meetsR11 && t.pset.all (fun p => decide (p < 2 ^ 16)) && t.qset.all (fun q => decide (q < 2 ^ 16))

/-- What one slot must satisfy: R11 for a TIMER id, nothing for the others. -/
def Slot.wf : Slot → Bool
  | .timer t => t.wf
  | .absent => true
  | .event => true
  | .portChange => true

/-- A record that defines a block: the range of `FPB` (R10), R11 for every TIMER id and at most one PORTCHANGE source (R12). -/
def Params.wf (p : Params) : Bool :=
  decide (1 ≤ p.fpb ∧ p.fpb < 2 ^ 32)
    && allSources.all (fun s => (p.slot s).wf)
    && decide ((allSources.filter fun s => p.slot s = .portChange).length ≤ 1)

/-- TMR0 of RC1 (R12). -/
def rc1Timer0 : Slot := .timer ⟨.bits16, [1, 2, 4, 8, 16, 32, 64, 128, 256], [1], true⟩

/-- TMR1, TMR3, TMR5 and TMR7 of RC1 (R12). -/
def rc1TimerOdd : Slot := .timer ⟨.bits16, [1, 2, 4, 8], [1], true⟩

/-- TMR2, TMR4, TMR6 and TMR8 of RC1 (R12). -/
def rc1TimerEven : Slot :=
  .timer ⟨.bits8, [1, 4, 16], [1, 2, 3, 4, 5, 6, 7, 8, 9, 10, 11, 12, 13, 14, 15, 16], false⟩

/-- The slot of each identity in RC1 (R12): TMR0 to TMR8 are 0 to 8, INT0 to INT3 are 9 to 12, RB is 13, and AD, RX,
TX, CMP, USB and CCP are 14 to 19. -/
def rc1Slot (s : SourceId) : Slot :=
  if s.val = 0 then rc1Timer0
  else if s.val ≤ 8 then (if s.val % 2 = 1 then rc1TimerOdd else rc1TimerEven)
  else if s.val ≤ 12 then .event
  else if s.val = 13 then .portChange
  else if s.val ≤ 19 then .event
  else .absent

/-- The reference configuration RC1, the default record (R12). -/
def Params.rc1 : Params :=
  { fpb := 48000000, ipReset := .high, slots := Vector.ofFn rc1Slot }

end Sys2Proof
end

