-- ==== Sys2Proof/Syntax.lean ====
section
/-! DEFINITION. The fifteen words of `spec/opcode_table.json`, one constructor each, with their operands as typed fields
(`30_encoding.md` R92, R102). Opcode 0xB is reserved and has no constructor (R99). -/

namespace Sys2Proof

/-- UNIT of REGT (`30_encoding.md` R95). Codes 3 to 7 are reserved and name no unit. -/
inductive TimeUnit where
  | us
  | ms
  | sec
  deriving DecidableEq, Repr

/-- The per-source fields QUERY reads, selectors 0x00 to 0x0E (`43_control.md` R178). -/
inductive SourceField where
  | used | ie | flag | ip | cb
  | cnt | lim | rld | ps | qs | ton | cs | tmr | psc | pst
  deriving DecidableEq, Repr

/-- The global fields QUERY reads, selectors 0x10 to 0x16 (`43_control.md` R178). -/
inductive GlobalField where
  | portv | prev | chg | fsmHigh | fsmLow | nocb | irq
  deriving DecidableEq, Repr

/-- A QUERY selector; reserved selector values name none (`30_encoding.md` R97). -/
inductive Selector where
  | source (f : SourceField)
  | global (g : GlobalField)
  deriving DecidableEq, Repr

/-- One port word (`30_encoding.md` R92). -/
inductive Instr where
  /-- `nop` (R175) -/
  | nop
  /-- `regt src, unit, delay, cb` (R152) -/
  | regt (src : SourceId) (unit : TimeUnit) (delay : BitVec 16) (cb : Handle)
  /-- `regc src, count, cb` (R153) -/
  | regc (src : SourceId) (count : BitVec 16) (cb : Handle)
  /-- `rege src, cb` (R154) -/
  | rege (src : SourceId) (cb : Handle)
  /-- `seten src, val` (R170) -/
  | seten (src : SourceId) (val : Bool)
  /-- `setpri src, level` (R172) -/
  | setpri (src : SourceId) (level : Level)
  /-- `tstf src` (R173) -/
  | tstf (src : SourceId)
  /-- `clrf src` (R174) -/
  | clrf (src : SourceId)
  /-- `query src, sel` (R178) -/
  | query (src : SourceId) (sel : Selector)
  /-- `disp level` (R191) -/
  | disp (level : Level)
  /-- `cbret level` (R193) -/
  | cbret (level : Level)
  /-- `clk n` (R220) -/
  | clk (n : BitVec 32)
  /-- `xedge src` (R223) -/
  | xedge (src : SourceId)
  /-- `raise src` (R224) -/
  | raise (src : SourceId)
  /-- `port v` (R225) -/
  | port (v : BitVec 8)
  deriving DecidableEq, Repr

end Sys2Proof
end

