-- ==== Sys2Proof/WellFormed.lean ====
section
/-! DEFINITION. Which terms of `Instr` spell a valid word: the part that holds for every parameter record, and the part that
asks the record (`60_exceptions.md` R241 c, d, f; R248). -/

namespace Sys2Proof

/-- The selectors 0x05 to 0x0E need a TIMER source (`43_control.md` R178). -/
def SourceField.timerOnly : SourceField → Bool
  | .used | .ie | .flag | .ip | .cb => false
  | .cnt | .lim | .rld | .ps | .qs | .ton | .cs | .tmr | .psc | .pst => true

/-- Well-formedness for every record: a global selector is spelled with `SRC = 0` (R241 f). Every other operand value its
type admits has an encoding; a reserved UNIT or selector has no term (R95, R97). -/
def Instr.wellFormed : Instr → Bool
  | .query s (.global _) => decide (s = 0)
  | .query _ (.source _) => true
  | .nop | .regt .. | .regc .. | .rege .. | .seten .. | .setpri .. | .tstf _ | .clrf _
  | .disp _ | .cbret _ | .clk _ | .xedge _ | .raise _ | .port _ => true

/-- A valid word of the block with record `p` (R241 c, d, f; R248): the named source is present and of the class its word
needs. -/
def Instr.legal (p : Params) : Instr → Bool
  | .nop | .disp _ | .cbret _ | .clk _ | .port _ => true
  | .regt s _ _ _ => (p.timer? s).isSome
  | .regc s _ _ => (p.timer? s).any (·.extok)
  | .rege s _ => p.present s && (p.timer? s).isNone
  | .seten s _ | .setpri s _ | .tstf s | .clrf s | .raise s => p.present s
  | .query s (.source f) => p.present s && (!f.timerOnly || (p.timer? s).isSome)
  | .query s (.global _) => decide (s = 0)
  | .xedge s => (p.timer? s).isSome

end Sys2Proof
end

