-- ==== Sys2Proof/Decode.lean ====
section
/-! DEFINITION. Word formats, the decoder (total, rejecting by name) and after it the encoder, both from the tables of
`30_encoding.md`. The bit positions of R91 stand once, in the field functions and in `assemble`. -/

namespace Sys2Proof

/-- The fifteen opcodes (`30_encoding.md` R92). -/
inductive Opcode where
  | nop | regt | regc | rege | seten | setpri | tstf | clrf | query | disp | cbret | clk | xedge | raise | port
  deriving DecidableEq, Repr

/-- The ten formats (`30_encoding.md` R93). -/
inductive Format where
  | fn | ft | fc | fe | fv | fs | fq | fl | fk | fp
  deriving DecidableEq, Repr

/-- Why a word spells no valid word, whatever the parameter record (`30_encoding.md` R94 to R99; `60_exceptions.md` R241 a,
b, e, f). -/
inductive DecodeError where
  /-- OP is 0xB. -/
  | reservedOpcode
  /-- The port does not carry this opcode. -/
  | wrongPort
  /-- A must-be-zero bit of the format is set. -/
  | mustBeZero
  /-- UNIT is 3 to 7. -/
  | reservedUnit
  /-- A QUERY selector that R178 does not list. -/
  | reservedSelector
  /-- A global selector with SRC not 0. -/
  | globalSelectorWithSource
  deriving DecidableEq, Repr

/-! The fields of R91. -/

def opField (w : Word) : BitVec 4 := w.extractLsb' 60 4
def srcField (w : Word) : SourceId := (w.extractLsb' 55 5).toFin
def unitField (w : Word) : BitVec 3 := w.extractLsb' 52 3
def valField (w : Word) : BitVec 1 := w.extractLsb' 51 1
def imm16Field (w : Word) : BitVec 16 := w.extractLsb' 32 16
def sel8Field (w : Word) : BitVec 8 := w.extractLsb' 32 8
def imm32Field (w : Word) : BitVec 32 := w.extractLsb' 0 32

/-- The OP value of each opcode (R92). -/
def Opcode.bits : Opcode → BitVec 4
  | .nop => 0x0#4
  | .regt => 0x1#4
  | .regc => 0x2#4
  | .rege => 0x3#4
  | .seten => 0x4#4
  | .setpri => 0x5#4
  | .tstf => 0x6#4
  | .clrf => 0x7#4
  | .query => 0x8#4
  | .disp => 0x9#4
  | .cbret => 0xA#4
  | .clk => 0xC#4
  | .xedge => 0xD#4
  | .raise => 0xE#4
  | .port => 0xF#4

/-- The opcode an OP value names; 0xB names none (R92, R99). -/
def Opcode.ofBits (b : BitVec 4) : Option Opcode :=
  match b.toNat with
  | 0x0 => some .nop
  | 0x1 => some .regt
  | 0x2 => some .regc
  | 0x3 => some .rege
  | 0x4 => some .seten
  | 0x5 => some .setpri
  | 0x6 => some .tstf
  | 0x7 => some .clrf
  | 0x8 => some .query
  | 0x9 => some .disp
  | 0xA => some .cbret
  | 0xC => some .clk
  | 0xD => some .xedge
  | 0xE => some .raise
  | 0xF => some .port
  | _ => none

/-- The format of each opcode (R92). -/
def Opcode.format : Opcode → Format
  | .nop => .fn
  | .regt => .ft
  | .regc => .fc
  | .rege => .fe
  | .seten | .setpri => .fv
  | .tstf | .clrf | .xedge | .raise => .fs
  | .query => .fq
  | .disp | .cbret => .fl
  | .clk => .fk
  | .port => .fp

/-- The bits a format fixes: OP and the must-be-zero bits (R93). -/
def Format.mask : Format → Word
  | .fn => 0xFFFFFFFFFFFFFFFF#64
  | .ft => 0xF00F000000000000#64
  | .fc => 0xF07F000000000000#64
  | .fe => 0xF07FFFFF00000000#64
  | .fv => 0xF077FFFFFFFFFFFF#64
  | .fs => 0xF07FFFFFFFFFFFFF#64
  | .fq => 0xF07FFF00FFFFFFFF#64
  | .fl => 0xFFF7FFFFFFFFFFFF#64
  | .fk => 0xFFFFFFFF00000000#64
  | .fp => 0xFFFFFF00FFFFFFFF#64

/-- `o << 60`, what the fixed bits of a word of opcode `o` are (R93). -/
def Opcode.pattern (o : Opcode) : Word := o.bits ++ 0#60

/-- The port that carries each opcode (R92). -/
def Opcode.carrier : Opcode → Port
  | .nop | .regt | .regc | .rege | .seten | .setpri | .tstf | .clrf | .query | .cbret => .command
  | .disp => .vector
  | .clk | .xedge | .raise | .port => .stimulus

/-- UNIT codes (R95). -/
def TimeUnit.ofBits (b : BitVec 3) : Option TimeUnit :=
  match b.toNat with
  | 0 => some .us
  | 1 => some .ms
  | 2 => some .sec
  | _ => none

/-- UNIT codes (R95). -/
def TimeUnit.bits : TimeUnit → BitVec 3
  | .us => 0#3
  | .ms => 1#3
  | .sec => 2#3

/-- VAL as an enable value (R96). -/
def enableOfVal (v : BitVec 1) : Bool := decide (v = 1#1)

/-- VAL of an enable value (R96). -/
def valOfEnable (b : Bool) : BitVec 1 := if b then 1#1 else 0#1

/-- VAL as a priority or a level: 0 LOW, 1 HIGH (R96). -/
def levelOfVal (v : BitVec 1) : Level := if v = 1#1 then .high else .low

/-- VAL of a priority or a level (R96). -/
def valOfLevel : Level → BitVec 1
  | .low => 0#1
  | .high => 1#1

/-- QUERY selector codes (`43_control.md` R178). -/
def SourceField.code : SourceField → BitVec 8
  | .used => 0x00#8
  | .ie => 0x01#8
  | .flag => 0x02#8
  | .ip => 0x03#8
  | .cb => 0x04#8
  | .cnt => 0x05#8
  | .lim => 0x06#8
  | .rld => 0x07#8
  | .ps => 0x08#8
  | .qs => 0x09#8
  | .ton => 0x0A#8
  | .cs => 0x0B#8
  | .tmr => 0x0C#8
  | .psc => 0x0D#8
  | .pst => 0x0E#8

/-- QUERY selector codes (`43_control.md` R178). -/
def GlobalField.code : GlobalField → BitVec 8
  | .portv => 0x10#8
  | .prev => 0x11#8
  | .chg => 0x12#8
  | .fsmHigh => 0x13#8
  | .fsmLow => 0x14#8
  | .nocb => 0x15#8
  | .irq => 0x16#8

/-- QUERY selector codes (`43_control.md` R178). -/
def Selector.code : Selector → BitVec 8
  | .source f => f.code
  | .global g => g.code

/-- The selector a code names; 0x0F and 0x17 to 0xFF name none (`30_encoding.md` R97). -/
def Selector.ofCode (c : BitVec 8) : Option Selector :=
  match c.toNat with
  | 0x00 => some (.source .used)
  | 0x01 => some (.source .ie)
  | 0x02 => some (.source .flag)
  | 0x03 => some (.source .ip)
  | 0x04 => some (.source .cb)
  | 0x05 => some (.source .cnt)
  | 0x06 => some (.source .lim)
  | 0x07 => some (.source .rld)
  | 0x08 => some (.source .ps)
  | 0x09 => some (.source .qs)
  | 0x0A => some (.source .ton)
  | 0x0B => some (.source .cs)
  | 0x0C => some (.source .tmr)
  | 0x0D => some (.source .psc)
  | 0x0E => some (.source .pst)
  | 0x10 => some (.global .portv)
  | 0x11 => some (.global .prev)
  | 0x12 => some (.global .chg)
  | 0x13 => some (.global .fsmHigh)
  | 0x14 => some (.global .fsmLow)
  | 0x15 => some (.global .nocb)
  | 0x16 => some (.global .irq)
  | _ => none

/-- The QUERY word with identity `s` and selector `sel`, unless it is a global selector with SRC not 0 (R241 f). -/
def queryOf (s : SourceId) (sel : Selector) : Except DecodeError Instr :=
  if (Instr.query s sel).wellFormed then .ok (.query s sel) else .error .globalSelectorWithSource

/-- The operands of a word whose fixed bits are right (`30_encoding.md` R102). -/
def operandsOf (w : Word) : Opcode → Except DecodeError Instr
  | .nop => .ok .nop
  | .regt =>
    match TimeUnit.ofBits (unitField w) with
    | some u => .ok (.regt (srcField w) u (imm16Field w) (imm32Field w))
    | none => .error .reservedUnit
  | .regc => .ok (.regc (srcField w) (imm16Field w) (imm32Field w))
  | .rege => .ok (.rege (srcField w) (imm32Field w))
  | .seten => .ok (.seten (srcField w) (enableOfVal (valField w)))
  | .setpri => .ok (.setpri (srcField w) (levelOfVal (valField w)))
  | .tstf => .ok (.tstf (srcField w))
  | .clrf => .ok (.clrf (srcField w))
  | .query =>
    match Selector.ofCode (sel8Field w) with
    | some sel => queryOf (srcField w) sel
    | none => .error .reservedSelector
  | .disp => .ok (.disp (levelOfVal (valField w)))
  | .cbret => .ok (.cbret (levelOfVal (valField w)))
  | .clk => .ok (.clk (imm32Field w))
  | .xedge => .ok (.xedge (srcField w))
  | .raise => .ok (.raise (srcField w))
  | .port => .ok (.port (sel8Field w))

/-- The decoder, whatever the port: total on 64-bit values (`30_encoding.md` R93, R101). -/
def decodeWord (w : Word) : Except DecodeError Instr :=
  match Opcode.ofBits (opField w) with
  | none => .error .reservedOpcode
  | some o => if w &&& o.format.mask = o.pattern then operandsOf w o else .error .mustBeZero

/-- The port a word of a test stream goes to; opcode 0xB goes to the command port (`30_encoding.md` R100). -/
def routePort (w : Word) : Port :=
  match Opcode.ofBits (opField w) with
  | some o => o.carrier
  | none => .command

/-- The decoder of one port: an opcode the port does not carry spells no valid word there (`30_encoding.md` R99). -/
def decodeOn (p : Port) (w : Word) : Except DecodeError Instr :=
  if routePort w = p then decodeWord w else .error .wrongPort

/-- The opcode of an instruction. -/
def Instr.opcode : Instr → Opcode
  | .nop => .nop
  | .regt .. => .regt
  | .regc .. => .regc
  | .rege .. => .rege
  | .seten .. => .seten
  | .setpri .. => .setpri
  | .tstf _ => .tstf
  | .clrf _ => .clrf
  | .query .. => .query
  | .disp _ => .disp
  | .cbret _ => .cbret
  | .clk _ => .clk
  | .xedge _ => .xedge
  | .raise _ => .raise
  | .port _ => .port

/-- The port that carries an instruction's word (R92). -/
def Instr.carrier (i : Instr) : Port := i.opcode.carrier

/-- Word assembly (`30_encoding.md` R91, R103): the fields in their places, bits 50 to 48 zero. -/
def assemble (op : BitVec 4) (s : SourceId) (unit : BitVec 3) (val : BitVec 1) (imm16 : BitVec 16) (imm32 : BitVec 32) :
    Word :=
  op ++ (BitVec.ofFin s : BitVec 5) ++ unit ++ val ++ 0#3 ++ imm16 ++ imm32

/-- SEL8 as IMM16: it lands in bits 39 to 32 (R103). -/
def imm16OfSel8 (v : BitVec 8) : BitVec 16 := 0#8 ++ v

/-- The encoder (`30_encoding.md` R103): the fields a format does not use are 0. -/
def encode (i : Instr) : Word :=
  match i with
  | .nop => assemble i.opcode.bits 0 0 0 0 0
  | .regt s u d cb => assemble i.opcode.bits s u.bits 0 d cb
  | .regc s c cb => assemble i.opcode.bits s 0 0 c cb
  | .rege s cb => assemble i.opcode.bits s 0 0 0 cb
  | .seten s v => assemble i.opcode.bits s 0 (valOfEnable v) 0 0
  | .setpri s l => assemble i.opcode.bits s 0 (valOfLevel l) 0 0
  | .tstf s => assemble i.opcode.bits s 0 0 0 0
  | .clrf s => assemble i.opcode.bits s 0 0 0 0
  | .query s sel => assemble i.opcode.bits s 0 0 (imm16OfSel8 sel.code) 0
  | .disp l => assemble i.opcode.bits 0 0 (valOfLevel l) 0 0
  | .cbret l => assemble i.opcode.bits 0 0 (valOfLevel l) 0 0
  | .clk n => assemble i.opcode.bits 0 0 0 0 n
  | .xedge s => assemble i.opcode.bits s 0 0 0 0
  | .raise s => assemble i.opcode.bits s 0 0 0 0
  | .port v => assemble i.opcode.bits 0 0 0 (imm16OfSel8 v) 0

/-- The word whose low `nbits` bits are those of `w` and whose bits above are 0. -/
def tableWord (nbits w : Nat) : Word := BitVec.ofNat 64 (w % 2 ^ nbits)

/-- The instruction the decoder reads from a word given as the opcode table numbers it: one 64-bit word, bit 0 least
significant (`20_memory.md` R72: the block defines no byte order), routed by its opcode (R100). -/
def decodeTableWord (nbits w : Nat) : Option Instr :=
  match decodeWord (tableWord nbits w) with
  | .ok i => some i
  | .error _ => none

end Sys2Proof
end

