-- ==== Sys2Proof/Machine/State.lean ====
section
/-! DEFINITION. The state of the block (`10_state.md`), as plain data, and the reset state (R60). The block has no
memory, no general registers and no program counter (`10_state.md` R30, R31; `20_memory.md` R70). -/

namespace Sys2Proof.Machine

/-- A channel's clock source, `CS[s]` (`10_state.md` R43). -/
inductive ClockSource where
  /-- 0, the peripheral clock. -/
  | int
  /-- 1, external edges. -/
  | ext
  deriving DecidableEq, Repr

/-- The fields of one identity (`10_state.md` R32 to R46). -/
structure SourceRegs where
  /-- `USED[s]`, the in-use bit (R32). -/
  used : Bool
  /-- `IE[s]`, the interrupt-enable bit (R33). -/
  ie   : Bool
  /-- `IF[s]`, the pending flag (R34). -/
  flag : Bool
  /-- `IP[s]`, the priority (R35). -/
  ip   : Level
  /-- `CB[s]`, the callback handle (R36). -/
  cb   : Handle
  /-- `CNT[s]`, the software period counter (R37). -/
  cnt  : BitVec 48
  /-- `LIM[s]`, the software period limit (R38). -/
  lim  : BitVec 48
  /-- `RLD[s]`, the reload value (R39). -/
  rld  : BitVec 16
  /-- `PS[s]`, the prescale divider (R40). -/
  ps   : BitVec 16
  /-- `QS[s]`, the postscale divider (R41). -/
  qs   : BitVec 16
  /-- `TON[s]`, the channel's on bit (R42). -/
  ton  : Bool
  /-- `CS[s]`, the channel's clock source (R43). -/
  cs   : ClockSource
  /-- `TMR[s]`, the channel's counter, its `W(s)` bits in a 16-bit field (R44). -/
  tmr  : BitVec 16
  /-- `PSC[s]`, the prescaler's edge count (R45). -/
  psc  : BitVec 16
  /-- `PST[s]`, the postscaler's overflow count (R46). -/
  pst  : BitVec 16
  deriving DecidableEq, Repr

/-- One dispatch FSM (`10_state.md` R50). -/
inductive Fsm where
  | idle
  /-- Identity `i` is the next to examine; 32 means every identity has been examined. -/
  | scan (i : Fin 33)
  /-- A FIRE for identity `i` has been emitted and its callback has not returned. -/
  | wait (i : SourceId)
  deriving DecidableEq, Repr

/-- The status codes (`60_exceptions.md` R240); their numbers are `Status.code` of `Machine/Ops.lean`. -/
inductive Status where
  | ok
  | alreadyUsed
  | badArg
  | illegal
  | protocol
  deriving DecidableEq, Repr

/-- The response of one command-port or vector-port word (`10_state.md` R54). -/
structure Response where
  status : Status
  data   : BitVec 64
  deriving DecidableEq, Repr

/-- One event of the output stream (`10_state.md` R55). -/
inductive Event where
  /-- The callback `cb` of source `s` is to run at `level`. -/
  | fire (level : Level) (s : SourceId) (cb : Handle)
  /-- The dispatch at `level` has returned. -/
  | done (level : Level)
  deriving DecidableEq, Repr

/-- Who takes the next step (`00_scope.md` R15, R16): the agents that send words to a port, or the scanner. -/
inductive Move where
  /-- The consumption of the word at the head of port `p`. -/
  | word (p : Port)
  /-- One scanner service step at `level`. -/
  | svc (level : Level)
  deriving DecidableEq, Repr

/-- Why a step ends in a fault. -/
inductive Fault where
  /-- Raised by `step`, and by nothing else, when nothing is left to do in a state with `NOCB = 1`: such a state is faulted
  and never final (`60_exceptions.md` R247). Safe: the block would idle there, and no step is lost. -/
  | nocbAtRest
  deriving DecidableEq, Repr

/-- Why a step is refused. -/
inductive Refusal where
  /-- Raised by `exec` alone, for an instruction that has no meaning yet; no arm raises it now. Safe. -/
  | notModelled (mnemonic : String)
  /-- Raised by `step`, and by nothing else, in a state whose REFUSED mark is set: no further step is taken
  (`10_state.md` R52, `60_exceptions.md` R248). Safe: the block is not specified for that environment or that record. -/
  | refusedMark
  deriving DecidableEq, Repr

/-- The state of the block. The last four fields are the model's: what the block has answered (`responses`), what the host
has sent and is not consumed (`inbox`), and which agent moves next (`sched`); `params` is the parameter record, which no
step changes (`10_state.md` R59). -/
structure State where
  /-- The per-source register file (R32 to R46). -/
  src       : Vector SourceRegs 32
  /-- `PORTV`, the current port snapshot (R47). -/
  portv     : BitVec 8
  /-- `PREV`, the previous port snapshot (R48). -/
  prev      : BitVec 8
  /-- `CHG`, the published change mask (R49). -/
  chg       : BitVec 8
  /-- `FSM[HIGH]` (R50). -/
  fsmHigh   : Fsm
  /-- `FSM[LOW]` (R50). -/
  fsmLow    : Fsm
  /-- `NOCB`, the sticky fault bit (R51). -/
  nocb      : Bool
  /-- `REFUSED`, the model's mark (R52). -/
  refused   : Bool
  /-- The event stream, oldest first (R55). -/
  events    : List Event
  /-- The responses given, oldest first (R54). -/
  responses : List Response
  /-- The words sent and not yet consumed, in the order they were sent; the words of one port are its queue, first at the
  head (`20_memory.md` R78). -/
  inbox     : List (Port × Word)
  /-- Which agent takes each of the next steps (`00_scope.md` R16); past its end the steps follow the eager schedule of
  `95_test_vectors.md` (log entry 2). -/
  sched     : List Move
  /-- The parameter record (`00_scope.md` R10). -/
  params    : Params
  deriving DecidableEq, Repr

/-- The reset values of one identity's fields (`10_state.md` R60). -/
def SourceRegs.reset (ipReset : Level) : SourceRegs :=
  { used := false, ie := false, flag := false, ip := ipReset, cb := 0, cnt := 0, lim := 0, rld := 0, ps := 1, qs := 1
    ton := false, cs := .int, tmr := 0, psc := 0, pst := 0 }

/-- The reset state of the block with record `p` (R60), with the REFUSED mark as given and nothing sent to it. -/
def State.initial (p : Params) (refused : Bool) : State :=
  { src := Vector.replicate 32 (SourceRegs.reset p.ipReset)
    portv := 0, prev := 0, chg := 0, fsmHigh := .idle, fsmLow := .idle, nocb := false, refused := refused
    events := [], responses := [], inbox := [], sched := [], params := p }

/-- The state after reset of the block with record `p`: a record that breaks R11 is refused (`60_exceptions.md` R248,
`70_reset_and_hazards.md` R272), so its REFUSED mark is set before the first step. -/
def State.resetWith (p : Params) : State := State.initial p (!p.wf)

/-- The state after reset, of the default record RC1 (`00_scope.md` R12, `70_reset_and_hazards.md` R270). -/
def State.reset : State := State.initial Params.rc1 false

end Sys2Proof.Machine
end

