-- ==== Sys2Proof/Machine/Ops.lean ====
section
/-! DEFINITION. The operations every meaning is written with: the register file, the FSMs, the two outputs, the contexts and
the hold, and entering and leaving a dispatch (the block's counterpart of taking an exception and returning from it,
`60_exceptions.md` R254, R255). -/

namespace Sys2Proof.Machine

/-! ## The register file -/

/-- `F[s]`, all fields of one identity. -/
def State.reg (s : State) (id : SourceId) : SourceRegs := s.src[id]

/-- All fields of one identity written at once. -/
def State.setReg (s : State) (id : SourceId) (r : SourceRegs) : State :=
  { s with src := s.src.set id r }

/-- `RLDH[s]`, the source's `reload_high` (`10_state.md` R39, `20_memory.md` R72). -/
def SourceRegs.rldh (r : SourceRegs) : BitVec 8 := r.rld.extractLsb' 8 8

/-- `RLDL[s]`, the source's `reload_low` (`10_state.md` R39, `20_memory.md` R72). -/
def SourceRegs.rldl (r : SourceRegs) : BitVec 8 := r.rld.extractLsb' 0 8

/-! ## The two outputs -/

/-- The status numbers (`60_exceptions.md` R240). -/
def Status.code : Status → BitVec 3
  | .ok => 0
  | .alreadyUsed => 1
  | .badArg => 2
  | .illegal => 3
  | .protocol => 4

/-- `respond(status, data)` (`00_scope.md` R14). -/
def State.respond (s : State) (status : Status) (data : BitVec 64) : State :=
  { s with responses := s.responses ++ [⟨status, data⟩] }

/-- `emit` (`00_scope.md` R14). -/
def State.emit (s : State) (e : Event) : State :=
  { s with events := s.events ++ [e] }

/-- `refuse`: the REFUSED mark is set (`00_scope.md` R14, `10_state.md` R52). -/
def State.refuse (s : State) : State := { s with refused := true }

/-! ## The dispatch FSMs, the contexts and the hold -/

/-- `FSM[level]`. -/
def State.fsm (s : State) : Level → Fsm
  | .low => s.fsmLow
  | .high => s.fsmHigh

/-- `FSM[level] <- f`. -/
def State.setFsm (s : State) (l : Level) (f : Fsm) : State :=
  match l with
  | .low => { s with fsmLow := f }
  | .high => { s with fsmHigh := f }

/-- The FSM is scanning. -/
def Fsm.scanning : Fsm → Bool
  | .scan _ => true
  | .idle => false
  | .wait _ => false

/-- The FSM encoding QUERY returns (`10_state.md` R50). -/
def Fsm.encode : Fsm → BitVec 8
  | .idle => 0x00
  | .scan i => BitVec.ofNat 8 (0x40 + i.val)
  | .wait i => BitVec.ofNat 8 (0x80 + i.val)

/-- `INNER`, the innermost level in a dispatch; `none` is the foreground (`44_dispatch.md` R190, `60_exceptions.md` R259). -/
def State.inner (s : State) : Option Level :=
  if s.fsmHigh ≠ .idle then some .high
  else if s.fsmLow ≠ .idle then some .low
  else none

/-- A command-port word is held: the innermost dispatch scans (`44_dispatch.md` R190). -/
def State.held (s : State) : Bool :=
  match s.inner with
  | none => false
  | some l => (s.fsm l).scanning

/-- The scanner's step at `level` is enabled (`44_dispatch.md` R194). -/
def State.svcEnabled (s : State) : Level → Bool
  | .high => s.fsmHigh.scanning
  | .low => s.fsmLow.scanning && decide (s.fsmHigh = .idle)

/-! ## Entering a dispatch, running a callback, and the two returns -/

/-- The accepted entry of a dispatch (`44_dispatch.md` R191, `60_exceptions.md` R254): the scan starts at identity 0 and
nothing else is saved or changed; a preempted LOW FSM is its own saved position. -/
def State.enterDispatch (s : State) (l : Level) : State := s.setFsm l (.scan 0)

/-- The scan goes on after identity `id`: the return from its callback (`44_dispatch.md` R193, `60_exceptions.md` R255), and
the end of an examination that fires nothing (R196, R198, R201). -/
def State.resumeAfter (s : State) (l : Level) (id : SourceId) : State := s.setFsm l (.scan id.succ)

/-- The end of a scan, which is the return from the dispatch (`44_dispatch.md` R195, `60_exceptions.md` R255). -/
def State.endDispatch (s : State) (l : Level) : State := (s.setFsm l .idle).emit (.done l)

/-- `fire(i)` at `level` (`44_dispatch.md` R201): a zero handle sets NOCB and the scan goes on; any other handle is emitted
and the FSM waits for its return. -/
def State.fire (s : State) (l : Level) (id : SourceId) : State :=
  if (s.reg id).cb = 0 then ({ s with nocb := true }).resumeAfter l id
  else (s.emit (.fire l id (s.reg id).cb)).setFsm l (.wait id)

end Sys2Proof.Machine
end

