-- ==== Sys2Proof/Machine/Flags.lean ====
section
/-! DEFINITION. The bits of the interrupt scheme: pending flags, enables, priorities, and the IRQ outputs computed from them
(`10_state.md` R33 to R35, R53; `60_exceptions.md` R249, R250). -/

namespace Sys2Proof.Machine

/-- One bit as a bit vector. -/
def bit (b : Bool) : BitVec 1 := if b then 1 else 0

/-- A priority as its bit: 0 LOW, 1 HIGH (`10_state.md` R35). -/
def levelBit : Level → BitVec 1
  | .low => 0
  | .high => 1

/-- A clock source as its bit: 0 INT, 1 EXT (`10_state.md` R43). -/
def ClockSource.bit : ClockSource → BitVec 1
  | .int => 0
  | .ext => 1

/-- `IF[s] <- v` (`10_state.md` R34). -/
def State.setFlag (s : State) (id : SourceId) (v : Bool) : State :=
  s.setReg id { s.reg id with flag := v }

/-- `IE[s] <- v` and `USED[s] <- v` (`43_control.md` R170). -/
def State.setEnable (s : State) (id : SourceId) (v : Bool) : State :=
  s.setReg id { s.reg id with ie := v, used := v }

/-- `IP[s] <- l` (`43_control.md` R172). -/
def State.setPriority (s : State) (id : SourceId) (l : Level) : State :=
  s.setReg id { s.reg id with ip := l }

/-- Source `s` is requesting: `IE[s] AND IF[s]` (`60_exceptions.md` R249). -/
def SourceRegs.requesting (r : SourceRegs) : Bool := r.ie && r.flag

/-- The scanner's test at `level`: `PRESENT(i)` and `IP[i] = level` and `IE[i] = 1` and `IF[i] = 1`
(`44_dispatch.md` R196). -/
def State.serviceable (s : State) (l : Level) (id : SourceId) : Bool :=
  s.params.present id && decide ((s.reg id).ip = l) && (s.reg id).requesting

/-- `IRQ_level`, the combinational output (`10_state.md` R53). -/
def State.irq (s : State) (l : Level) : Bool := allSources.any fun id => s.serviceable l id

end Sys2Proof.Machine
end

