-- ==== Sys2Proof/Machine/Operands.lean ====
section
/-! DEFINITION. What an operand names: a present source, a timer, an event source, or a field a QUERY reads. A word whose
operand names nothing is ILLEGAL on the command port and refused on the stimulus port (`60_exceptions.md` R241, R248). -/

namespace Sys2Proof.Machine

/-- The outcome type of every meaning. -/
abbrev Result := Host.Outcome State Fault Refusal

/-- A command word that names a source of no right kind: status ILLEGAL, nothing else (`60_exceptions.md` R241, R246). -/
def illegalWord (s : State) : Result := .next (s.respond .illegal 0)

/-- A stimulus word that names a source of no right kind is refused (`60_exceptions.md` R248). -/
def refusedWord (s : State) : Result := .next s.refuse

/-- A command word over any present source (`60_exceptions.md` R241 c). -/
def onPresent (s : State) (id : SourceId) (effect : State) : Result :=
  if s.params.present id then .next effect else illegalWord s

/-- A command word over a TIMER source (`60_exceptions.md` R241 c, d). -/
def onTimer (s : State) (id : SourceId) (effect : TimerParams → State) : Result :=
  match s.params.timer? id with
  | some t => .next (effect t)
  | none => illegalWord s

/-- A command word over a TIMER source that counts external edges (`60_exceptions.md` R241 d). -/
def onExtTimer (s : State) (id : SourceId) (effect : TimerParams → State) : Result :=
  match s.params.timer? id with
  | some t => if t.extok then .next (effect t) else illegalWord s
  | none => illegalWord s

/-- A command word over a present source that is no TIMER (`60_exceptions.md` R241 c, d). -/
def onEvent (s : State) (id : SourceId) (effect : State) : Result :=
  match s.params.slot id with
  | .event => .next effect
  | .portChange => .next effect
  | .absent => illegalWord s
  | .timer _ => illegalWord s

/-- The value of a per-source field, zero-extended (`43_control.md` R178). -/
def SourceRegs.read (r : SourceRegs) : SourceField → BitVec 64
  | .used => (bit r.used).setWidth 64
  | .ie => (bit r.ie).setWidth 64
  | .flag => (bit r.flag).setWidth 64
  | .ip => (levelBit r.ip).setWidth 64
  | .cb => r.cb.setWidth 64
  | .cnt => r.cnt.setWidth 64
  | .lim => r.lim.setWidth 64
  | .rld => r.rld.setWidth 64
  | .ps => r.ps.setWidth 64
  | .qs => r.qs.setWidth 64
  | .ton => (bit r.ton).setWidth 64
  | .cs => r.cs.bit.setWidth 64
  | .tmr => r.tmr.setWidth 64
  | .psc => r.psc.setWidth 64
  | .pst => r.pst.setWidth 64

/-- The value of a global field, zero-extended (`43_control.md` R178). -/
def State.readGlobal (s : State) : GlobalField → BitVec 64
  | .portv => s.portv.setWidth 64
  | .prev => s.prev.setWidth 64
  | .chg => s.chg.setWidth 64
  | .fsmHigh => s.fsmHigh.encode.setWidth 64
  | .fsmLow => s.fsmLow.encode.setWidth 64
  | .nocb => (bit s.nocb).setWidth 64
  | .irq => (bit (s.irq .high) ++ bit (s.irq .low)).setWidth 64

/-- `FIELD(sel, s)` where the selector applies to `s`, `none` where it does not (`43_control.md` R178, `60_exceptions.md`
R241 c, f). -/
def State.readField (s : State) (id : SourceId) : Selector → Option (BitVec 64)
  | .source f =>
    if s.params.present id && (!f.timerOnly || (s.params.timer? id).isSome) then some ((s.reg id).read f) else none
  | .global g => if id = 0 then some (s.readGlobal g) else none

end Sys2Proof.Machine
end

