-- ==== Sys2Proof/Machine/Control.lean ====
section
/-! DEFINITION. NOP, SETEN, SETPRI, TSTF, CLRF and QUERY (`43_control.md`). -/

namespace Sys2Proof.Machine

/-- NOP: a response and nothing else (R175). -/
def execNop (s : State) : Result := .next (s.respond .ok 0)

/-- SETEN: `IE` and `USED` take the operand, nothing else changes (R170). -/
def execSeten (id : SourceId) (val : Bool) (s : State) : Result :=
  onPresent s id ((s.setEnable id val).respond .ok 0)

/-- SETPRI: `IP` takes the operand (R172). -/
def execSetpri (id : SourceId) (level : Level) (s : State) : Result :=
  onPresent s id ((s.setPriority id level).respond .ok 0)

/-- TSTF: the pending flag is the data of the response (R173). -/
def execTstf (id : SourceId) (s : State) : Result :=
  onPresent s id (s.respond .ok ((bit (s.reg id).flag).setWidth 64))

/-- CLRF: the pending flag is cleared (R174). -/
def execClrf (id : SourceId) (s : State) : Result :=
  onPresent s id ((s.setFlag id false).respond .ok 0)

/-- QUERY: one field is the data of the response (R178). -/
def execQuery (id : SourceId) (sel : Selector) (s : State) : Result :=
  match s.readField id sel with
  | some v => .next (s.respond .ok v)
  | none => illegalWord s

end Sys2Proof.Machine
end

