-- ==== Sys2Proof/Machine/Dispatching.lean ====
section
/-! DEFINITION. DISP and CBRET, and the scanner's service step (`44_dispatch.md`). -/

namespace Sys2Proof.Machine

/-- A DISP at `level` is accepted: that level is in no dispatch, and LOW is not entered inside HIGH (R191). -/
def State.acceptsDispatch (s : State) : Level → Bool
  | .high => decide (s.fsmHigh = .idle)
  | .low => decide (s.fsmLow = .idle) && decide (s.fsmHigh = .idle)

/-- DISP: entry of a dispatch, or PROTOCOL (R191). -/
def execDisp (level : Level) (s : State) : Result :=
  if s.acceptsDispatch level then .next ((s.enterDispatch level).respond .ok 0)
  else .next (s.respond .protocol 0)

/-- The identity whose callback at `level` is the innermost running code (R193). -/
def State.runningCallback (s : State) (level : Level) : Option SourceId :=
  if s.inner = some level then
    match s.fsm level with
    | .wait i => some i
    | .idle => none
    | .scan _ => none
  else none

/-- CBRET: the running callback returns, or PROTOCOL (R193). -/
def execCbret (level : Level) (s : State) : Result :=
  match s.runningCallback level with
  | some i => .next ((s.resumeAfter level i).respond .ok 0)
  | none => .next (s.respond .protocol 0)

/-- The service of a TIMER source on its fields, after the flag is cleared: reload, count, compare (R198). The sum is
compared exactly, before it is narrowed to 48 bits. -/
def SourceRegs.tick (w : TimerWidth) (r : SourceRegs) : SourceRegs :=
  { r with
    tmr := w.trunc r.rld
    cnt := if r.lim.toNat < r.cnt.toNat + 1 then 0 else r.cnt + 1 }

/-- The count exceeds the limit at this service, so the source fires (R198). -/
def SourceRegs.tickFires (r : SourceRegs) : Bool := decide (r.lim.toNat < r.cnt.toNat + 1)

/-- Servicing `id` at `level` (R197): the flag is cleared, then the class action of R198, R199 or R200, then fire or go on.
An absent identity is never serviced (R196). -/
def State.service (s : State) (l : Level) (id : SourceId) : State :=
  let c := s.setFlag id false
  match s.params.slot id with
  | .timer t =>
    let u := c.setReg id ((c.reg id).tick t.width)
    if (s.reg id).tickFires then u.fire l id else u.resumeAfter l id
  | .portChange => ({ c with chg := s.portv ^^^ s.prev, prev := s.portv }).fire l id
  | .event => c.fire l id
  | .absent => s.resumeAfter l id

/-- One identity is examined: serviced, or skipped with nothing else changed (R196). -/
def State.examine (s : State) (l : Level) (id : SourceId) : State :=
  if s.serviceable l id then s.service l id else s.resumeAfter l id

/-- The scanner's step `SVC(level)`; nothing happens where that level does not scan (R194 to R196). -/
def State.svc (s : State) (l : Level) : State :=
  match s.fsm l with
  | .scan i => if h : i.val < 32 then s.examine l ⟨i.val, h⟩ else s.endDispatch l
  | .idle => s
  | .wait _ => s

end Sys2Proof.Machine
end

