-- ==== Sys2Proof/Machine/Calculator.lean ====
section
/-! DEFINITION. The period calculator (`41_calculator.md`), a function of the parameters and the operands only (R120). All of
it is exact arithmetic on natural numbers (R13, R104, R123). -/

namespace Sys2Proof.Machine

/-- TIME mode with its unit, or EDGE mode (R120). -/
inductive CalcMode where
  | time (unit : TimeUnit)
  | edge
  deriving DecidableEq, Repr

/-- The tuple `(p, q, N, L, R)` (R120). -/
structure CalcResult where
  p : Nat
  q : Nat
  n : Nat
  l : Nat
  r : Nat
  deriving DecidableEq, Repr

/-- `UNIT_DIV` (R121). -/
def unitDiv : TimeUnit → Nat
  | .us => 1000000
  | .ms => 1000
  | .sec => 1

/-- Cycles per unit (R122). -/
def cyclesPerUnit (fpb : Nat) : CalcMode → Nat
  | .time u => fpb / unitDiv u
  | .edge => 1

/-- The target cycle count `T` (R123). -/
def targetCycles (fpb : Nat) (m : CalcMode) (d : Nat) : Nat := cyclesPerUnit fpb m * d

/-- The largest divider `DMAX` (R127). -/
def dmax (t : TimerParams) : Nat := (t.pairs.map fun c => c.1 * c.2).foldl max 0

/-- The software multiplier `k` for target `T` (R128). -/
def softMultiplier (t : TimerParams) (target : Nat) : Nat := target / (dmax t * (t.width.maxw + 1)) + 1

/-- The first pair whose count fits the counter with multiplier `k` (R129). -/
def choosePair (t : TimerParams) (target k : Nat) : Option (Nat × Nat) :=
  t.pairs.find? fun c => decide (target / (c.1 * c.2 * k) ≤ t.width.maxw)

/-- The result for the chosen pair: `N`, `L = k - 1`, `R = MAXW - N`, or INVALID where `N = 0` (R130 to R132). -/
def settle (t : TimerParams) (target k : Nat) (c : Nat × Nat) : Option CalcResult :=
  let n := target / (c.1 * c.2 * k)
  if n = 0 then none else some ⟨c.1, c.2, n, k - 1, t.width.maxw - n⟩

/-- `CALC` (R133); `none` is INVALID. -/
def calculate (fpb : Nat) (t : TimerParams) (m : CalcMode) (d : Nat) : Option CalcResult :=
  let target := targetCycles fpb m d
  if target = 0 then none
  else
    let k := softMultiplier t target
    (choosePair t target k).bind (settle t target k)

/-- The implied period `P = p q (N + 1) (L + 1)` of a result, in input edges (R134). -/
def CalcResult.period (c : CalcResult) : Nat := c.p * c.q * (c.n + 1) * (c.l + 1)

/-- One hardware tick of a result, in input edges (R135). -/
def CalcResult.tick (c : CalcResult) : Nat := c.p * c.q * (c.n + 1)

end Sys2Proof.Machine
end

