-- ==== Sys2Proof/Machine/Registration.lean ====
section
/-! DEFINITION. REGT, REGC and REGE (`42_registration.md`). -/

namespace Sys2Proof.Machine

/-- The common success effects of a registration on the fields of its source (R150); `IP` keeps its value (R156). -/
def SourceRegs.install (r : SourceRegs) (cb : Handle) : SourceRegs :=
  { r with cb := cb, flag := false, ie := true, used := true }

/-- The channel programmed with the calculator's result and the given clock source, and the software counter restarted
(R152, R153). -/
def SourceRegs.program (r : SourceRegs) (w : TimerWidth) (cs : ClockSource) (c : CalcResult) : SourceRegs :=
  { r with
    ps := BitVec.ofNat 16 c.p
    qs := BitVec.ofNat 16 c.q
    cs := cs
    ton := true
    psc := 0
    pst := 0
    rld := BitVec.ofNat 16 c.r
    tmr := w.trunc (BitVec.ofNat 16 c.r)
    lim := BitVec.ofNat 48 c.l
    cnt := 0 }

/-- The registration checks in their order, ALREADY_USED before BAD_ARG (R151, R152; `60_exceptions.md` R245), then the
success effect. -/
def State.register (s : State) (id : SourceId) (cb : Handle) (success : Option State) : State :=
  if (s.reg id).used then s.respond .alreadyUsed 0
  else if cb = 0 then s.respond .badArg 0
  else
    match success with
    | none => s.respond .badArg 0
    | some t => t.respond .ok 0

/-- The success effect of a timer registration, where the calculator gives a result (R152, R153). -/
def State.installTimer (s : State) (id : SourceId) (w : TimerWidth) (cs : ClockSource) (cb : Handle)
    (c : CalcResult) : State :=
  s.setReg id (((s.reg id).program w cs c).install cb)

/-- The success effect of an event registration; the PORTCHANGE source also takes the pins as its baseline (R154, R155). -/
def State.installEvent (s : State) (id : SourceId) (cb : Handle) : State :=
  match s.params.slot id with
  | .portChange => { s.setReg id ((s.reg id).install cb) with prev := s.portv }
  | .event => s.setReg id ((s.reg id).install cb)
  | .absent => s
  | .timer _ => s

/-- REGT, a periodic timer source (R152). -/
def execRegt (id : SourceId) (unit : TimeUnit) (delay : BitVec 16) (cb : Handle) (s : State) : Result :=
  onTimer s id fun t =>
    s.register id cb ((calculate s.params.fpb t (.time unit) delay.toNat).map (s.installTimer id t.width .int cb))

/-- REGC, a timer source in counter mode (R153). -/
def execRegc (id : SourceId) (count : BitVec 16) (cb : Handle) (s : State) : Result :=
  onExtTimer s id fun t =>
    s.register id cb ((calculate s.params.fpb t .edge count.toNat).map (s.installTimer id t.width .ext cb))

/-- REGE, an event or port-change source (R154). -/
def execRege (id : SourceId) (cb : Handle) (s : State) : Result :=
  onEvent s id (s.register id cb (some (s.installEvent id cb)))

end Sys2Proof.Machine
end

