-- ==== Sys2Proof/Machine/Channel.lean ====
section
/-! DEFINITION. The timer channel (`45_stimulus.md` R220, R221): one input edge, `n` edges one after the other, and the same
`n` edges computed at once. -/

namespace Sys2Proof.Machine

/-- `EDGE(s)`: one input edge reaches a channel of width `w` (R221). -/
def SourceRegs.edge (w : TimerWidth) (r : SourceRegs) : SourceRegs :=
  if r.psc + 1 = r.ps then
    if r.tmr = w.top then
      if r.pst + 1 = r.qs then { r with psc := 0, tmr := w.trunc r.rld, pst := 0, flag := true }
      else { r with psc := 0, tmr := w.trunc r.rld, pst := r.pst + 1 }
    else { r with psc := 0, tmr := w.trunc (r.tmr + 1) }
  else { r with psc := r.psc + 1 }

/-- `n` edges, one after the other. -/
def SourceRegs.edges (w : TimerWidth) : Nat → SourceRegs → SourceRegs
  | 0, r => r
  | n + 1, r => SourceRegs.edges w n (r.edge w)

/-- The channel's counts are in range: `PSC < PS`, `PST < QS` (`10_state.md` R58) and `TMR <= MAXW` (R44). -/
def SourceRegs.countsInRange (w : TimerWidth) (r : SourceRegs) : Bool :=
  decide (r.psc.toNat < r.ps.toNat ∧ r.pst.toNat < r.qs.toNat ∧ r.tmr.toNat ≤ w.maxw)

/-- What `c` counter increments do to `TMR`, as a number: the counts of the completed wraps and the counter's value. From
`tmr` the first wrap takes `maxw - tmr + 1` increments, every later one `maxw - reload + 1` (R221). -/
def countUp (maxw reload tmr c : Nat) : Nat × Nat :=
  if c ≤ maxw - tmr then (0, tmr + c)
  else
    let rest := c - (maxw - tmr) - 1
    (1 + rest / (maxw - reload + 1), reload + rest % (maxw - reload + 1))

/-- `n` edges at once, for a channel whose counts are in range. -/
def SourceRegs.jump (w : TimerWidth) (n : Nat) (r : SourceRegs) : SourceRegs :=
  let pre := r.psc.toNat + n
  let up := countUp w.maxw (w.trunc r.rld).toNat r.tmr.toNat (pre / r.ps.toNat)
  let post := r.pst.toNat + up.1
  { r with
    psc := BitVec.ofNat 16 (pre % r.ps.toNat)
    tmr := BitVec.ofNat 16 up.2
    pst := BitVec.ofNat 16 (post % r.qs.toNat)
    flag := r.flag || decide (r.qs.toNat ≤ post) }

/-- `n` edges. This is `edges` for every register value (obligation `AdvanceIsRepeatedEdges`); it computes a channel whose
counts are in range, as every reachable one is, without counting `n` times. -/
def SourceRegs.advance (w : TimerWidth) (n : Nat) (r : SourceRegs) : SourceRegs :=
  if r.countsInRange w then r.jump w n else r.edges w n

/-- The channel counts this kind of edge: it is on and its clock source is `cs` (R220, R223). -/
def SourceRegs.counts (r : SourceRegs) (cs : ClockSource) : Bool := r.ton && decide (r.cs = cs)

/-- `n` edges of kind `cs` reach the channel of `id`: nothing happens to an identity that is no TIMER, to a channel that is
off, or to one that counts the other kind of edge (R220, R223). -/
def State.channelAfter (s : State) (cs : ClockSource) (n : Nat) (id : SourceId) : SourceRegs :=
  match s.params.timer? id with
  | some t => if (s.reg id).counts cs then (s.reg id).advance t.width n else s.reg id
  | none => s.reg id

/-- The peripheral clock runs for `n` cycles: every INT-clocked running channel sees them, in one step (R220). -/
def State.clockCycles (s : State) (n : Nat) : State :=
  { s with src := Vector.ofFn (s.channelAfter .int n) }

/-- One external edge reaches the channel of `id` (R223). -/
def State.externalEdge (s : State) (id : SourceId) : State := s.setReg id (s.channelAfter .ext 1 id)

end Sys2Proof.Machine
end

