-- ==== Sys2Proof/Machine/Stimulus.lean ====
section
/-! DEFINITION. CLK, XEDGE, RAISE and PORT (`45_stimulus.md`). A stimulus word gets no response (`10_state.md` R54). -/

namespace Sys2Proof.Machine

/-- CLK: the peripheral clock runs for `n` cycles (R220). -/
def execClk (n : BitVec 32) (s : State) : Result := .next (s.clockCycles n.toNat)

/-- XEDGE: one external edge on the count input of a TIMER source (R223). -/
def execXedge (id : SourceId) (s : State) : Result :=
  match s.params.timer? id with
  | some _ => .next (s.externalEdge id)
  | none => refusedWord s

/-- RAISE: a peripheral sets the pending flag of a present source (R224). -/
def execRaise (id : SourceId) (s : State) : Result :=
  if s.params.present id then .next (s.setFlag id true) else refusedWord s

/-- A pin of the group 4 to 7 changes between two snapshots (R225). -/
def groupChanged (old new : BitVec 8) : Bool := decide ((new ^^^ old) &&& 0xF0 ≠ 0)

/-- PORT: the pins take a new value, and a change on pins 4 to 7 sets the flag of the PORTCHANGE source (R225). -/
def execPort (v : BitVec 8) (s : State) : Result :=
  match s.params.portChange? with
  | some rb => if groupChanged s.portv v then .next (({ s with portv := v }).setFlag rb true) else .next { s with portv := v }
  | none => .next { s with portv := v }

end Sys2Proof.Machine
end

