-- ==== Sys2Proof/Machine/Dispatch.lean ====
section
/-! DEFINITION. The effect of CONSUMING each word, one arm per constructor. Whether a word is consumed at all (the hold of
`44_dispatch.md` R190, the port it arrives on) is decided in `Machine/Ports.lean`. -/

namespace Sys2Proof.Machine

def exec (i : Instr) (s : State) : Host.Outcome State Fault Refusal :=
  match i with
  | .nop => Sys2Proof.Machine.execNop s
  | .regt id unit delay cb => Sys2Proof.Machine.execRegt id unit delay cb s
  | .regc id count cb => Sys2Proof.Machine.execRegc id count cb s
  | .rege id cb => Sys2Proof.Machine.execRege id cb s
  | .seten id val => Sys2Proof.Machine.execSeten id val s
  | .setpri id level => Sys2Proof.Machine.execSetpri id level s
  | .tstf id => Sys2Proof.Machine.execTstf id s
  | .clrf id => Sys2Proof.Machine.execClrf id s
  | .query id sel => Sys2Proof.Machine.execQuery id sel s
  | .disp level => Sys2Proof.Machine.execDisp level s
  | .cbret level => Sys2Proof.Machine.execCbret level s
  | .clk n => Sys2Proof.Machine.execClk n s
  | .xedge id => Sys2Proof.Machine.execXedge id s
  | .raise id => Sys2Proof.Machine.execRaise id s
  | .port v => Sys2Proof.Machine.execPort v s

end Sys2Proof.Machine
end

