-- ==== Sys2Proof/Machine/Ports.lean ====
section
/-! DEFINITION. How the agents' moves reach the block: which word a port offers, whether it is consumed, what a word that spells
no valid word does, and the eager schedule (`00_scope.md` R14 to R16, `44_dispatch.md` R190, R194, `30_encoding.md` R99
to R101). -/

namespace Sys2Proof.Machine

/-- The word at the head of port `p`: the first one sent to it and not consumed (`20_memory.md` R78). -/
def headOf (p : Port) : List (Port × Word) → Option Word
  | [] => none
  | e :: rest => if e.1 = p then some e.2 else headOf p rest

/-- The inbox without the word at the head of port `p`. -/
def dropHead (p : Port) : List (Port × Word) → List (Port × Word)
  | [] => []
  | e :: rest => if e.1 = p then rest else e :: dropHead p rest

/-- A word that spells no valid word on its port: status ILLEGAL on the command and vector ports, a refusal on the stimulus
port (`30_encoding.md` R101; `60_exceptions.md` R241, R248). -/
def invalidWord (p : Port) (s : State) : Result :=
  match p with
  | .command => illegalWord s
  | .vector => illegalWord s
  | .stimulus => refusedWord s

/-- The consumption of word `w` at port `p`. -/
def consume (p : Port) (w : Word) (s : State) : Result :=
  match decodeOn p w with
  | .ok i => exec i s
  | .error _ => invalidWord p s

/-- Words of port `p` are held now: only the command port's, while the innermost dispatch scans (`44_dispatch.md` R190;
`45_stimulus.md` R226). -/
def portHeld (p : Port) (s : State) : Bool :=
  match p with
  | .command => s.held
  | .vector => false
  | .stimulus => false

/-- The move of the agents behind port `p`: its head word is consumed, unless there is none or it is held; then nothing
happens and the word stays at the head of its port (`00_scope.md` R14). -/
def wordMove (p : Port) (s : State) : Result :=
  match headOf p s.inbox with
  | none => .next s
  | some w => if portHeld p s then .next s else consume p w { s with inbox := dropHead p s.inbox }

/-- The scanner's move at `level`: a service step where it is enabled, nothing where it is not (`44_dispatch.md` R194). -/
def svcMove (l : Level) (s : State) : Result :=
  if s.svcEnabled l then .next (s.svc l) else .next s

/-- One move (`00_scope.md` R16). -/
def takeMove (m : Move) (s : State) : Result :=
  match m with
  | .word p => wordMove p s
  | .svc l => svcMove l s

/-- The move the eager schedule takes (`95_test_vectors.md`, conventions): an enabled scanner step, HIGH before LOW, else the
word sent first. -/
def eagerMove (s : State) : Option Move :=
  if s.svcEnabled .high then some (.svc .high)
  else if s.svcEnabled .low then some (.svc .low)
  else (s.inbox.head?).map fun e => .word e.1

/-- Nothing is left to do: no agent is scheduled, no word is waiting and no scanner step is enabled. The block waits here
for ever, which is a fault where NOCB is set (`60_exceptions.md` R247). -/
def restOutcome (s : State) : Result := if s.nocb then .fault .nocbAtRest else .next s

/-- The step of a state with an empty schedule. -/
def eagerStep (s : State) : Result :=
  match eagerMove s with
  | some m => takeMove m s
  | none => restOutcome s

/-- Words sent to the block as a test stream, each to the port its opcode belongs to (`30_encoding.md` R100). -/
def State.send (s : State) (ws : List Word) : State :=
  { s with inbox := s.inbox ++ ws.map fun w => (routePort w, w) }

/-- Word `w` placed at the head of the port its opcode belongs to, and that port's agents scheduled next. -/
def State.offer (s : State) (w : Word) : State :=
  { s with inbox := (routePort w, w) :: s.inbox, sched := .word (routePort w) :: s.sched }

end Sys2Proof.Machine
end

