-- ==== Sys2Proof/Machine/Step.lean ====
section
/-! DEFINITION. One step of the block (`00_scope.md` R16): one word from one port, or one scanner service step. -/

namespace Sys2Proof.Machine

/-- The step: none is taken once the REFUSED mark is set (`10_state.md` R52); the scheduled agent moves where one is
scheduled, and past the end of the schedule the eager schedule goes on. -/
def step (s : State) : Host.Outcome State Fault Refusal :=
  if s.refused then .refused .refusedMark
  else
    match s.sched with
    | m :: rest => takeMove m { s with sched := rest }
    | [] => eagerStep s

/-- `s` with one word offered to the port its opcode belongs to, consumed by the very next step. -/
def State.withFetchWord (s : State) (nbits w : Nat) : State := s.offer (tableWord nbits w)

end Sys2Proof.Machine
end

