-- ==== Sys2Proof/Machine/Assembler.lean ====
section
/-! DEFINITION. The assembler syntax and the pseudo-instructions of `30_encoding.md` R105 and R106, over RC1's source names. It
is notation for words: the machine never calls it. -/

namespace Sys2Proof.Machine

/-! ## Pseudo-instructions (R106) -/

/-- `enable <src>`, `IntEnable(<src>)`. -/
def pseudoEnable (s : SourceId) : Instr := .seten s true

/-- `disable <src>`, `IntDisable(<src>)`. -/
def pseudoDisable (s : SourceId) : Instr := .seten s false

/-- `IntSetEnable(<src>, <v>)`. -/
def pseudoIntSetEnable (s : SourceId) (v : Bool) : Instr := .seten s v

/-- The identity of TMRN in RC1. -/
def timerSource (n : Fin 9) : SourceId := n.castLE (by decide)

/-- The identity of INTN in RC1. -/
def intSource (n : Fin 4) : SourceId := ⟨9 + n.val, by omega⟩

/-- `OnTimerN(<cb>, <unit>, <delay>)`. -/
def pseudoOnTimer (n : Fin 9) (cb : Handle) (unit : TimeUnit) (delay : BitVec 16) : Instr :=
  .regt (timerSource n) unit delay cb

/-- `OnCounterN(<cb>, <count>)`. -/
def pseudoOnCounter (n : Fin 9) (cb : Handle) (count : BitVec 16) : Instr := .regc (timerSource n) count cb

/-- `OnChangePin4to7(<cb>)`: the source RB. -/
def pseudoOnChangePin4to7 (cb : Handle) : Instr := .rege 13 cb

/-- `OnEvent(<src>, <cb>)`. -/
def pseudoOnEvent (s : SourceId) (cb : Handle) : Instr := .rege s cb

/-- `OnChangePinN(<cb>)`: the INT line N. -/
def pseudoOnChangePin (n : Fin 4) (cb : Handle) : Instr := .rege (intSource n) cb

/-- `IntIsFlagSet(<src>)`. -/
def pseudoIntIsFlagSet (s : SourceId) : Instr := .tstf s

/-- `IntClearFlag(<src>)`. -/
def pseudoIntClearFlag (s : SourceId) : Instr := .clrf s

/-- The `userhighinterrupt` and `userlowinterrupt` entries. -/
def pseudoInterruptEntry (l : Level) : Instr := .disp l

/-- `clk <n>` for any `n`: past the 32-bit operand, `clk 0xFFFFFFFF` repeated and then the rest. -/
def pseudoClk (n : Nat) : List Instr :=
  if n < 2 ^ 32 then [.clk (BitVec.ofNat 32 n)]
  else List.replicate (n / (2 ^ 32 - 1)) (.clk 0xFFFFFFFF) ++ [.clk (BitVec.ofNat 32 (n % (2 ^ 32 - 1)))]

/-! ## One line of assembler text (R105) -/

/-- The characters before the first `sep`, and those after it where there is one. -/
def splitFirst (sep : Char) : List Char → List Char × Option (List Char)
  | [] => ([], none)
  | c :: rest =>
    if c = sep then ([], some rest)
    else
      let r := splitFirst sep rest
      (c :: r.1, r.2)

/-- The pieces of a text between the `sep` characters. -/
def splitAll (sep : Char) : List Char → List (List Char)
  | [] => [[]]
  | c :: rest =>
    match splitAll sep rest with
    | [] => [[c]]
    | w :: ws => if c = sep then [] :: w :: ws else (c :: w) :: ws

/-- The value of one digit, whatever the base. -/
def digitValue (c : Char) : Option Nat :=
  if '0' ≤ c ∧ c ≤ '9' then some (c.toNat - '0'.toNat)
  else if 'a' ≤ c ∧ c ≤ 'f' then some (c.toNat - 'a'.toNat + 10)
  else none

/-- A number of the base whose digits are read left to right after the value `acc`. -/
def digitsValue (base : Nat) : Nat → List Char → Option Nat
  | acc, [] => some acc
  | acc, c :: rest =>
    match digitValue c with
    | some d => if d < base then digitsValue base (acc * base + d) rest else none
    | none => none

/-- A decimal or `0x` hexadecimal number of lower-case text. -/
def parseNumber : List Char → Option Nat
  | [] => none
  | '0' :: 'x' :: [] => none
  | '0' :: 'x' :: rest => digitsValue 16 0 rest
  | cs => digitsValue 10 0 cs

/-- A number that fits `w` bits. -/
def parseBits (w : Nat) (cs : List Char) : Option (BitVec w) :=
  (parseNumber cs).bind fun n => if n < 2 ^ w then some (BitVec.ofNat w n) else none

/-- RC1's source names in identity order, lower case (R105, `00_scope.md` R12). -/
def rc1Names : List String :=
  ["tmr0", "tmr1", "tmr2", "tmr3", "tmr4", "tmr5", "tmr6", "tmr7", "tmr8", "int0", "int1", "int2", "int3", "rb"]
    ++ ["ad", "rx", "tx", "cmp", "usb", "ccp"]

/-- A source operand: a name, or a number 0 to 31. -/
def parseSource (cs : List Char) : Option SourceId :=
  match rc1Names.findIdx? fun n => decide (n.toList = cs) with
  | some i => if h : i < 32 then some ⟨i, h⟩ else none
  | none => (parseNumber cs).bind fun n => if h : n < 32 then some ⟨n, h⟩ else none

def parseUnit (cs : List Char) : Option TimeUnit :=
  if cs = "us".toList then some .us
  else if cs = "ms".toList then some .ms
  else if cs = "sec".toList then some .sec
  else none

def parseLevel (cs : List Char) : Option Level :=
  if cs = "low".toList then some .low
  else if cs = "high".toList then some .high
  else none

def parseEnable (cs : List Char) : Option Bool :=
  if cs = "0".toList then some false
  else if cs = "1".toList then some true
  else none

/-- The selector a number names. -/
def parseSelector (cs : List Char) : Option Selector := (parseBits 8 cs).bind Selector.ofCode

/-- The instruction of a mnemonic and its operands, in lower case (R105; `enable` and `disable` of R106). -/
def parseInstr (mnemonic : List Char) (ops : List (List Char)) : Option Instr :=
  match String.ofList mnemonic, ops with
  | "nop", [] => some .nop
  | "regt", [s, u, d, cb] => do return .regt (← parseSource s) (← parseUnit u) (← parseBits 16 d) (← parseBits 32 cb)
  | "regc", [s, c, cb] => do return .regc (← parseSource s) (← parseBits 16 c) (← parseBits 32 cb)
  | "rege", [s, cb] => do return .rege (← parseSource s) (← parseBits 32 cb)
  | "seten", [s, v] => do return .seten (← parseSource s) (← parseEnable v)
  | "setpri", [s, l] => do return .setpri (← parseSource s) (← parseLevel l)
  | "tstf", [s] => (parseSource s).map .tstf
  | "clrf", [s] => (parseSource s).map .clrf
  | "query", [s, f] => do return .query (← parseSource s) (← parseSelector f)
  | "disp", [l] => (parseLevel l).map .disp
  | "cbret", [l] => (parseLevel l).map .cbret
  | "clk", [n] => (parseBits 32 n).map .clk
  | "xedge", [s] => (parseSource s).map .xedge
  | "raise", [s] => (parseSource s).map .raise
  | "port", [v] => (parseBits 8 v).map .port
  | "enable", [s] => (parseSource s).map pseudoEnable
  | "disable", [s] => (parseSource s).map pseudoDisable
  | _, _ => none

/-- One line of assembler text: the mnemonic, a space, and the operands separated by commas, in any case (R105). -/
def assembleLine (line : String) : Option Instr :=
  let p := splitFirst ' ' (line.toList.map Char.toLower)
  match p.2 with
  | none => parseInstr p.1 []
  | some rest => parseInstr p.1 (splitAll ',' (rest.filter fun c => decide (c ≠ ' ')))

end Sys2Proof.Machine
end

