-- ==== Sys2Proof/Safety.lean ====
section
/-! DEFINITION. What counts as a faulted, a resting and a final state (`60_exceptions.md` R247), and the invariants of the reachable
states (`10_state.md` section 2, R56 to R58; `44_dispatch.md` R201, R202). -/

namespace Sys2Proof.Machine

/-- A state with `NOCB = 1` is faulted (`10_state.md` R51, `60_exceptions.md` R247). -/
abbrev State.Faulted (s : State) : Prop := s.nocb = true

/-- No move is scheduled, no word waits and no scanner step is enabled: nothing happens until the environment acts. -/
abbrev State.AtRest (s : State) : Prop :=
  s.sched = [] ∧ s.inbox = [] ∧ s.svcEnabled .high = false ∧ s.svcEnabled .low = false

/-- A run may end here: at rest, not refused, and never faulted (R247). -/
abbrev State.Final (s : State) : Prop := s.AtRest ∧ s.refused = false ∧ ¬ s.Faulted

/-- The channel fields of an identity that is no TIMER hold their reset values: nothing writes them (`10_state.md`
section 2). -/
abbrev SourceRegs.ChannelAtReset (r : SourceRegs) : Prop :=
  r.cnt = 0 ∧ r.lim = 0 ∧ r.rld = 0 ∧ r.ps = 1 ∧ r.qs = 1 ∧ r.ton = false ∧ r.cs = .int ∧ r.tmr = 0 ∧ r.psc = 0 ∧ r.pst = 0

/-- The channel fields of a TIMER source: `CNT <= LIM` (R57); the dividers offered and the divider counts in range (R58);
`TMR` and `RLD` within the counter's width (R39, R44). -/
abbrev SourceRegs.ChannelInRange (t : TimerParams) (r : SourceRegs) : Prop :=
  r.cnt.toNat ≤ r.lim.toNat
    ∧ r.psc.toNat < r.ps.toNat ∧ r.pst.toNat < r.qs.toNat
    ∧ r.ps.toNat ∈ 1 :: t.pset ∧ r.qs.toNat ∈ 1 :: t.qset
    ∧ r.tmr.toNat ≤ t.width.maxw ∧ r.rld.toNat ≤ t.width.maxw

/-- The invariant of one identity: `USED = IE` (R56), an absent identity at its reset values (section 2), and the
channel fields as above. -/
def SourceInv (ipReset : Level) (slot : Slot) (r : SourceRegs) : Prop :=
  r.used = r.ie ∧
    match slot with
    | .absent => r = SourceRegs.reset ipReset
    | .timer t => r.ChannelInRange t
    | .event => r.ChannelAtReset
    | .portChange => r.ChannelAtReset

/-- A FIRE names a present source and a handle that is not 0 (`44_dispatch.md` R196, R201). -/
def EventInv (p : Params) (e : Event) : Prop :=
  match e with
  | .fire _ id cb => p.present id = true ∧ cb ≠ 0
  | .done _ => True

/-- A level in WAIT waits for the callback of a present source that has a handle (`44_dispatch.md` R201). -/
def FsmInv (s : State) (f : Fsm) : Prop :=
  match f with
  | .wait id => s.params.present id = true ∧ (s.reg id).cb ≠ 0
  | .idle => True
  | .scan _ => True

/-- The invariant of the reachable states; its first part says that the record defines a block (`00_scope.md` R11). -/
def State.Inv (s : State) : Prop :=
  s.params.wf = true
    ∧ (∀ id : SourceId, SourceInv s.params.ipReset (s.params.slot id) (s.reg id))
    ∧ FsmInv s s.fsmHigh ∧ FsmInv s s.fsmLow
    ∧ (∀ e ∈ s.events, EventInv s.params e)

/-- The level an event is about. -/
def Event.level : Event → Level
  | .fire l _ _ => l
  | .done l => l

/-- The last event of the stream about level `l`. -/
def lastEventAt (l : Level) (es : List Event) : Option Event := (es.filter fun e => e.level = l).getLast?

/-- What the stream's last event about `l` tells of `FSM[l]`: an idle level has ended its last dispatch; a waiting level waits
for the callback fired last; a scanning level has fired only identities it has passed (`44_dispatch.md` R193, R195,
R201, R202). -/
def StreamInvAt (l : Level) (f : Fsm) (es : List Event) : Prop :=
  match f, lastEventAt l es with
  | .idle, none => True
  | .idle, some (.done _) => True
  | .idle, some (.fire ..) => False
  | .wait id, some (.fire _ id' _) => id = id'
  | .wait _, some (.done _) => False
  | .wait _, none => False
  | .scan k, some (.fire _ id _) => id.val < k.val
  | .scan _, some (.done _) => True
  | .scan _, none => True

/-- The event stream agrees with the FSMs. -/
def State.StreamInv (s : State) : Prop :=
  StreamInvAt .high s.fsmHigh s.events ∧ StreamInvAt .low s.fsmLow s.events

end Sys2Proof.Machine
end

