-- ==== Sys2Proof/Certificates/Slice0/Obligations.lean ====
section
/-! DEFINITION. The statements for the provers. Each docstring names the rules of `spec/` it formalises. The words of
`Sys2Proof.Claims` are only the vocabulary the statements share. -/

namespace Sys2Proof.Claims

open Sys2Proof.Machine

/-- Consuming `i` in `s` answers `(st, d)`, and the next state is `t` with that one response added to those of `s`. -/
def Answers (i : Instr) (s : State) (st : Status) (d : BitVec 64) (t : State) : Prop :=
  exec i s = .next { t with responses := s.responses ++ [⟨st, d⟩] }

/-- `s` with the fields of identity `id` replaced: every other identity and every global field as in `s`. -/
def withReg (s : State) (id : SourceId) (r : SourceRegs) : State := { s with src := s.src.set id r }

/-- `s` with `FSM[l]` replaced: everything else as in `s`. -/
def withFsm (s : State) (l : Level) (f : Fsm) : State :=
  match l with
  | .high => { s with fsmHigh := f }
  | .low => { s with fsmLow := f }

/-- One cycle of the peripheral clock, as `45_stimulus.md` R220 says it: every present TIMER with `TON = 1` and `CS = INT`
gets one `EDGE`. -/
def oneCycle (s : State) : State :=
  { s with
    src := Vector.ofFn fun id =>
      match s.params.timer? id with
      | some t => if (s.reg id).ton = true ∧ (s.reg id).cs = .int then (s.reg id).edge t.width else s.reg id
      | none => s.reg id }

/-- One edge on a running channel whose source is enabled and serviced with no delay, and the number of times it has
fired: where the edge sets the flag, the service clears it, reloads, counts, and fires past the limit
(`45_stimulus.md` R221, `44_dispatch.md` R197, R198). -/
def edgeServed (w : TimerWidth) (x : SourceRegs × Nat) : SourceRegs × Nat :=
  let r := x.1.edge w
  if r.flag then ({ r.tick w with flag := false }, if r.tickFires then x.2 + 1 else x.2) else (r, x.2)

/-- What the service of `id` leaves in its fields (`44_dispatch.md` R197 to R200): the flag cleared and, for a TIMER source,
the reload and the count. -/
def servicedReg (t : Option TimerParams) (r : SourceRegs) : SourceRegs :=
  match t with
  | none => { r with flag := false }
  | some t =>
    { r with flag := false, tmr := t.width.trunc r.rld, cnt := if r.cnt.toNat + 1 ≤ r.lim.toNat then r.cnt + 1 else 0 }

/-- A serviced source fires: always if it is no TIMER, and on the count exceeding the limit if it is one
(`44_dispatch.md` R198 to R200). -/
def firesNow (t : Option TimerParams) (r : SourceRegs) : Bool :=
  match t with
  | none => true
  | some _ => !decide (r.cnt.toNat + 1 ≤ r.lim.toNat)

/-- One scanner step at `l`, and at once the CBRET of the callback it fired, if it fired one. -/
def svcReturning (l : Level) (s : State) : State :=
  match (s.svc l).fsm l with
  | .wait _ =>
    match exec (.cbret l) (s.svc l) with
    | .next t => t
    | .fault _ => s.svc l
    | .refused _ => s.svc l
  | .idle => s.svc l
  | .scan _ => s.svc l

/-- The FIREs a dispatch at `l` emits for the sources pending in `s`, in ascending identity order. -/
def firesOf (l : Level) (s : State) : List Event :=
  (allSources.filter fun id =>
      s.serviceable l id && firesNow (s.params.timer? id) (s.reg id) && decide ((s.reg id).cb ≠ 0)).map
    fun id => Event.fire l id (s.reg id).cb

/-- The identity a word names in its SRC field, for the words that write the source they name (`20_memory.md` R71). -/
def namedSource : Instr → Option SourceId
  | .regt id _ _ _ | .regc id _ _ | .rege id _ | .seten id _ | .setpri id _ | .clrf id | .xedge id | .raise id => some id
  | .nop | .tstf _ | .query _ _ | .disp _ | .cbret _ | .clk _ | .port _ => none

/-- The identity a registration word registers. -/
def registeredSource : Instr → Option SourceId
  | .regt id _ _ _ | .regc id _ _ | .rege id _ => some id
  | .nop | .seten _ _ | .setpri _ _ | .tstf _ | .clrf _ | .query _ _ | .disp _ | .cbret _ | .clk _ | .xedge _ | .raise _
  | .port _ => none

/-- TSTF and QUERY, the words whose rules give the response a datum (`43_control.md` R173, R178). -/
def answersData : Instr → Bool
  | .tstf _ | .query _ _ => true
  | .nop | .regt .. | .regc .. | .rege .. | .seten .. | .setpri .. | .clrf _ | .disp _ | .cbret _ | .clk _ | .xedge _
  | .raise _ | .port _ => false

/-- The move the next step takes: the scheduled one, and past the end of the schedule the eager one. -/
def nextMove (s : State) : Option Move :=
  match s.sched with
  | [] => eagerMove s
  | m :: _ => some m

/-- The step from `s` to `t` registers `id`: it consumes a registration word of `id` and answers it OK. -/
def Registers (id : SourceId) (s t : State) : Prop :=
  ∃ p w i d, nextMove s = some (.word p) ∧ headOf p s.inbox = some w ∧ decodeOn p w = .ok i ∧ registeredSource i = some id
    ∧ t.responses = s.responses ++ [⟨.ok, d⟩]

/-- Source `id` has in `t` what it had in `s` of all that its service reads and a registration wrote: the callback, the limit,
the reload and the counter. -/
def KeepsRegistration (id : SourceId) (s t : State) : Prop :=
  (t.reg id).cb = (s.reg id).cb ∧ (t.reg id).lim = (s.reg id).lim ∧ (t.reg id).rld = (s.reg id).rld
  ∧ (t.reg id).cnt = (s.reg id).cnt

/-- The record, the schedule and the words waiting are as before. -/
def SameInputs (s t : State) : Prop :=
  t.params = s.params ∧ t.sched = s.sched ∧ t.inbox = s.inbox

end Sys2Proof.Claims

open Sys2Proof Sys2Proof.Machine Sys2Proof.Claims

/-! ## Reset -/

/-- `10_state.md` R60: the state after reset of the block with record `p`, field by field. The record of `State.reset` is RC1
(`00_scope.md` R12). -/
def Obligations.ResetLeavesTheTableOfResetValues : Prop :=
  State.reset = State.resetWith Params.rc1 ∧
  ∀ p : Params,
    let s := State.resetWith p
    (∀ id : SourceId, s.reg id =
      { used := false, ie := false, flag := false, ip := p.ipReset, cb := 0, cnt := 0, lim := 0, rld := 0, ps := 1, qs := 1,
        ton := false, cs := .int, tmr := 0, psc := 0, pst := 0 })
    ∧ s.portv = 0 ∧ s.prev = 0 ∧ s.chg = 0 ∧ s.fsmHigh = .idle ∧ s.fsmLow = .idle ∧ s.nocb = false ∧ s.events = []
    ∧ (p.wf = true → s.refused = false)

/-- `10_state.md` R53: IRQ_L is the OR, over the present sources at level L, of IE AND IF; both are 0 after reset; and QUERY 0x16
returns the two bits, HIGH above LOW. -/
def Obligations.IrqIsTheOrOfTheRequestingSources : Prop :=
  (∀ (s : State) (l : Level), s.irq l = true ↔
    ∃ id : SourceId, s.params.present id = true ∧ (s.reg id).ip = l ∧ (s.reg id).ie = true ∧ (s.reg id).flag = true)
  ∧ (∀ (p : Params) (l : Level), (State.resetWith p).irq l = false)
  ∧ ∀ s : State, ∃ v, Answers (.query 0 (.global .irq)) s .ok v s ∧ v.toNat = 2 * (s.irq .high).toNat + (s.irq .low).toNat

/-! ## What each word does when it is consumed -/

/-- `43_control.md` R175. -/
def Obligations.NopAnswersOkAndChangesNothing : Prop :=
  ∀ s : State, Answers .nop s .ok 0 s

/-- `42_registration.md` R152, with R150 and R151: REGT on every form: no TIMER source, already used, a bad argument, and the
success with every field it writes; nothing else changes. -/
def Obligations.RegtProgramsTheTimerOrAnswersWhy : Prop :=
  ∀ (s : State) (id : SourceId) (u : TimeUnit) (d : BitVec 16) (cb : Handle),
    (s.params.timer? id = none → Answers (.regt id u d cb) s .illegal 0 s)
    ∧ ∀ t, s.params.timer? id = some t →
      ((s.reg id).used = true → Answers (.regt id u d cb) s .alreadyUsed 0 s)
      ∧ ((s.reg id).used = false → cb = 0 ∨ calculate s.params.fpb t (.time u) d.toNat = none →
          Answers (.regt id u d cb) s .badArg 0 s)
      ∧ ∀ c, (s.reg id).used = false → cb ≠ 0 → calculate s.params.fpb t (.time u) d.toNat = some c →
          Answers (.regt id u d cb) s .ok 0
            (withReg s id
              { used := true, ie := true, flag := false, ip := (s.reg id).ip, cb := cb, cnt := 0
                lim := BitVec.ofNat 48 c.l, rld := BitVec.ofNat 16 c.r, ps := BitVec.ofNat 16 c.p, qs := BitVec.ofNat 16 c.q
                ton := true, cs := .int, tmr := t.width.trunc (BitVec.ofNat 16 c.r), psc := 0, pst := 0 })

/-- `42_registration.md` R153, with R150 and R151: REGC on every form. -/
def Obligations.RegcProgramsTheCounterOrAnswersWhy : Prop :=
  ∀ (s : State) (id : SourceId) (n : BitVec 16) (cb : Handle),
    (s.params.timer? id = none → Answers (.regc id n cb) s .illegal 0 s)
    ∧ ∀ t, s.params.timer? id = some t →
      (t.extok = false → Answers (.regc id n cb) s .illegal 0 s)
      ∧ (t.extok = true → (s.reg id).used = true → Answers (.regc id n cb) s .alreadyUsed 0 s)
      ∧ (t.extok = true → (s.reg id).used = false → cb = 0 ∨ calculate s.params.fpb t .edge n.toNat = none →
          Answers (.regc id n cb) s .badArg 0 s)
      ∧ ∀ c, t.extok = true → (s.reg id).used = false → cb ≠ 0 → calculate s.params.fpb t .edge n.toNat = some c →
          Answers (.regc id n cb) s .ok 0
            (withReg s id
              { used := true, ie := true, flag := false, ip := (s.reg id).ip, cb := cb, cnt := 0
                lim := BitVec.ofNat 48 c.l, rld := BitVec.ofNat 16 c.r, ps := BitVec.ofNat 16 c.p, qs := BitVec.ofNat 16 c.q
                ton := true, cs := .ext, tmr := t.width.trunc (BitVec.ofNat 16 c.r), psc := 0, pst := 0 })

/-- `42_registration.md` R154, with R150, R151 and R155: REGE on every form; the PORTCHANGE source also takes PORTV as its
baseline. -/
def Obligations.RegeInstallsTheEventOrAnswersWhy : Prop :=
  ∀ (s : State) (id : SourceId) (cb : Handle),
    (s.params.slot id = .absent ∨ (∃ t, s.params.slot id = .timer t) → Answers (.rege id cb) s .illegal 0 s)
    ∧ (s.params.slot id = .event ∨ s.params.slot id = .portChange →
        ((s.reg id).used = true → Answers (.rege id cb) s .alreadyUsed 0 s)
        ∧ ((s.reg id).used = false → cb = 0 → Answers (.rege id cb) s .badArg 0 s)
        ∧ ((s.reg id).used = false → cb ≠ 0 →
            let r := { s.reg id with used := true, ie := true, flag := false, cb := cb }
            (s.params.slot id = .event → Answers (.rege id cb) s .ok 0 (withReg s id r))
            ∧ (s.params.slot id = .portChange →
                Answers (.rege id cb) s .ok 0 { withReg s id r with prev := s.portv })))

/-- `43_control.md` R170. -/
def Obligations.SetenSetsEnableAndInUse : Prop :=
  ∀ (s : State) (id : SourceId) (v : Bool),
    (s.params.present id = true →
      Answers (.seten id v) s .ok 0 (withReg s id { s.reg id with ie := v, used := v }))
    ∧ (s.params.present id = false → Answers (.seten id v) s .illegal 0 s)

/-- `43_control.md` R172. -/
def Obligations.SetpriSetsThePriority : Prop :=
  ∀ (s : State) (id : SourceId) (l : Level),
    (s.params.present id = true → Answers (.setpri id l) s .ok 0 (withReg s id { s.reg id with ip := l }))
    ∧ (s.params.present id = false → Answers (.setpri id l) s .illegal 0 s)

/-- `43_control.md` R173. -/
def Obligations.TstfReadsThePendingFlag : Prop :=
  ∀ (s : State) (id : SourceId),
    (s.params.present id = true → Answers (.tstf id) s .ok (if (s.reg id).flag then 1 else 0) s)
    ∧ (s.params.present id = false → Answers (.tstf id) s .illegal 0 s)

/-- `43_control.md` R174. -/
def Obligations.ClrfClearsThePendingFlag : Prop :=
  ∀ (s : State) (id : SourceId),
    (s.params.present id = true → Answers (.clrf id) s .ok 0 (withReg s id { s.reg id with flag := false }))
    ∧ (s.params.present id = false → Answers (.clrf id) s .illegal 0 s)

/-- `43_control.md` R178, the per-source selectors: the field is the data of the response, zero-extended, and nothing changes; a
source the selector does not apply to is ILLEGAL. -/
def Obligations.QueryReadsEveryPerSourceField : Prop :=
  ∀ (s : State) (id : SourceId),
    (s.params.present id = true →
      Answers (.query id (.source .used)) s .ok (if (s.reg id).used then 1 else 0) s
      ∧ Answers (.query id (.source .ie)) s .ok (if (s.reg id).ie then 1 else 0) s
      ∧ Answers (.query id (.source .flag)) s .ok (if (s.reg id).flag then 1 else 0) s
      ∧ Answers (.query id (.source .ip)) s .ok (if (s.reg id).ip = .high then 1 else 0) s
      ∧ Answers (.query id (.source .cb)) s .ok ((s.reg id).cb.setWidth 64) s)
    ∧ ((s.params.timer? id).isSome = true →
      Answers (.query id (.source .cnt)) s .ok ((s.reg id).cnt.setWidth 64) s
      ∧ Answers (.query id (.source .lim)) s .ok ((s.reg id).lim.setWidth 64) s
      ∧ Answers (.query id (.source .rld)) s .ok ((s.reg id).rld.setWidth 64) s
      ∧ Answers (.query id (.source .ps)) s .ok ((s.reg id).ps.setWidth 64) s
      ∧ Answers (.query id (.source .qs)) s .ok ((s.reg id).qs.setWidth 64) s
      ∧ Answers (.query id (.source .ton)) s .ok (if (s.reg id).ton then 1 else 0) s
      ∧ Answers (.query id (.source .cs)) s .ok (if (s.reg id).cs = .ext then 1 else 0) s
      ∧ Answers (.query id (.source .tmr)) s .ok ((s.reg id).tmr.setWidth 64) s
      ∧ Answers (.query id (.source .psc)) s .ok ((s.reg id).psc.setWidth 64) s
      ∧ Answers (.query id (.source .pst)) s .ok ((s.reg id).pst.setWidth 64) s)
    ∧ (s.params.present id = false → ∀ f, Answers (.query id (.source f)) s .illegal 0 s)
    ∧ (s.params.timer? id = none →
      ∀ f, f ∉ [SourceField.used, .ie, .flag, .ip, .cb] → Answers (.query id (.source f)) s .illegal 0 s)

/-- `43_control.md` R178 and `10_state.md` R50, the global selectors, the FSM code and the two IRQ bits among them; a global
selector with SRC not 0 is ILLEGAL. -/
def Obligations.QueryReadsEveryGlobalField : Prop :=
  ∀ s : State,
    Answers (.query 0 (.global .portv)) s .ok (s.portv.setWidth 64) s
    ∧ Answers (.query 0 (.global .prev)) s .ok (s.prev.setWidth 64) s
    ∧ Answers (.query 0 (.global .chg)) s .ok (s.chg.setWidth 64) s
    ∧ (∃ v, Answers (.query 0 (.global .fsmHigh)) s .ok v s
        ∧ (s.fsmHigh = .idle → v = 0)
        ∧ (∀ i, s.fsmHigh = .scan i → v.toNat = 0x40 + i.val)
        ∧ (∀ i, s.fsmHigh = .wait i → v.toNat = 0x80 + i.val))
    ∧ (∃ v, Answers (.query 0 (.global .fsmLow)) s .ok v s
        ∧ (s.fsmLow = .idle → v = 0)
        ∧ (∀ i, s.fsmLow = .scan i → v.toNat = 0x40 + i.val)
        ∧ (∀ i, s.fsmLow = .wait i → v.toNat = 0x80 + i.val))
    ∧ Answers (.query 0 (.global .nocb)) s .ok (if s.nocb then 1 else 0) s
    ∧ (∃ v, Answers (.query 0 (.global .irq)) s .ok v s
        ∧ v.toNat = 2 * (s.irq .high).toNat + (s.irq .low).toNat)
    ∧ ∀ (id : SourceId) (g : GlobalField), id ≠ 0 → Answers (.query id (.global g)) s .illegal 0 s

/-- `44_dispatch.md` R191: DISP enters a dispatch of an idle level, LOW only outside a HIGH dispatch; every other entry is
PROTOCOL and changes nothing. -/
def Obligations.DispEntersTheDispatchOrAnswersProtocol : Prop :=
  ∀ (s : State) (l : Level),
    (s.fsm l = .idle → (l = .low → s.fsmHigh = .idle) → Answers (.disp l) s .ok 0 (withFsm s l (.scan 0)))
    ∧ (s.fsm l ≠ .idle ∨ (l = .low ∧ s.fsmHigh ≠ .idle) → Answers (.disp l) s .protocol 0 s)

/-- `44_dispatch.md` R193 and R190: CBRET resumes the scan after the source whose callback is the innermost running code; every
other return is PROTOCOL and changes nothing. -/
def Obligations.CbretResumesTheScanOrAnswersProtocol : Prop :=
  ∀ (s : State) (l : Level),
    (∀ i, s.fsm l = .wait i → (l = .low → s.fsmHigh = .idle) →
      Answers (.cbret l) s .ok 0 (withFsm s l (.scan i.succ)))
    ∧ ((∀ i, s.fsm l ≠ .wait i) ∨ (l = .low ∧ s.fsmHigh ≠ .idle) → Answers (.cbret l) s .protocol 0 s)

/-- `45_stimulus.md` R220: CLK n is n cycles one after the other, each giving one EDGE to every running channel clocked by the
peripheral clock; it completes and gets no response. -/
def Obligations.ClkIsItsCyclesOneAfterTheOther : Prop :=
  ∀ (s : State) (n : BitVec 32), exec (.clk n) s = .next (oneCycle^[n.toNat] s)

/-- `45_stimulus.md` R223: XEDGE gives one EDGE to a running channel in EXT mode, is ignored by any other channel, and is refused
for a source that is no TIMER. -/
def Obligations.XedgeCountsOneExternalEdge : Prop :=
  ∀ (s : State) (id : SourceId),
    (∀ t, s.params.timer? id = some t →
      ((s.reg id).ton = true → (s.reg id).cs = .ext →
        exec (.xedge id) s = .next (withReg s id ((s.reg id).edge t.width)))
      ∧ ((s.reg id).ton = false ∨ (s.reg id).cs = .int → exec (.xedge id) s = .next s))
    ∧ (s.params.timer? id = none → exec (.xedge id) s = .next { s with refused := true })

/-- `45_stimulus.md` R224. -/
def Obligations.RaiseSetsThePendingFlag : Prop :=
  ∀ (s : State) (id : SourceId),
    (s.params.present id = true → exec (.raise id) s = .next (withReg s id { s.reg id with flag := true }))
    ∧ (s.params.present id = false → exec (.raise id) s = .next { s with refused := true })

/-- `45_stimulus.md` R225: PORT writes PORTV, and sets the flag of the PORTCHANGE source exactly when a pin of 4 to 7 changes. -/
def Obligations.PortTakesThePinsAndFlagsAGroupChange : Prop :=
  ∀ (s : State) (v : BitVec 8),
    (∀ rb, s.params.portChange? = some rb → (v ^^^ s.portv) &&& 0xF0 ≠ 0 →
      exec (.port v) s = .next { withReg s rb { s.reg rb with flag := true } with portv := v })
    ∧ (s.params.portChange? = none ∨ (v ^^^ s.portv) &&& 0xF0 = 0 → exec (.port v) s = .next { s with portv := v })

/-! ## The channel and the scanner -/

/-- `45_stimulus.md` R221: one edge, case by case; only the divider counts, the counter and the flag can change. -/
def Obligations.EdgeAdvancesTheChannel : Prop :=
  ∀ (w : TimerWidth) (r : SourceRegs),
    (r.psc + 1 ≠ r.ps → r.edge w = { r with psc := r.psc + 1 })
    ∧ (r.psc + 1 = r.ps → r.tmr.toNat < w.maxw → r.edge w = { r with psc := 0, tmr := r.tmr + 1 })
    ∧ (r.psc + 1 = r.ps → r.tmr.toNat = w.maxw → r.pst + 1 ≠ r.qs →
        r.edge w = { r with psc := 0, tmr := w.trunc r.rld, pst := r.pst + 1 })
    ∧ (r.psc + 1 = r.ps → r.tmr.toNat = w.maxw → r.pst + 1 = r.qs →
        r.edge w = { r with psc := 0, tmr := w.trunc r.rld, pst := 0, flag := true })

/-- `45_stimulus.md` R220, R221: the channel's closed form is its edges one after the other, for every register value. -/
def Obligations.AdvanceIsRepeatedEdges : Prop :=
  ∀ (w : TimerWidth) (n : Nat) (r : SourceRegs), r.advance w n = (SourceRegs.edge w)^[n] r

/-- `44_dispatch.md` R195 and R196: the end of the scan emits DONE and idles the level; an identity that is absent, at the other
level, disabled or not pending is passed with nothing else changed. -/
def Obligations.ScannerEndsTheScanAndSkipsIdentitiesWithNothingToDo : Prop :=
  ∀ (s : State) (l : Level),
    (s.fsm l = .scan 32 → s.svc l = { withFsm s l .idle with events := s.events ++ [.done l] })
    ∧ ∀ id : SourceId, s.fsm l = .scan id.castSucc →
        s.params.present id = false ∨ (s.reg id).ip ≠ l ∨ (s.reg id).ie = false ∨ (s.reg id).flag = false →
        s.svc l = withFsm s l (.scan id.succ)

/-- `44_dispatch.md` R197, R198 and R201: the service of a TIMER source, counting on, firing, and firing with no handle. -/
def Obligations.TimerServiceReloadsCountsAndFiresPastTheLimit : Prop :=
  ∀ (s : State) (l : Level) (id : SourceId) (t : TimerParams),
    s.params.timer? id = some t → s.fsm l = .scan id.castSucc →
    (s.reg id).ip = l → (s.reg id).ie = true → (s.reg id).flag = true →
    ((s.reg id).cnt.toNat + 1 ≤ (s.reg id).lim.toNat →
      s.svc l = withFsm (withReg s id
        { s.reg id with flag := false, tmr := t.width.trunc (s.reg id).rld, cnt := (s.reg id).cnt + 1 }) l (.scan id.succ))
    ∧ ((s.reg id).lim.toNat < (s.reg id).cnt.toNat + 1 →
        let u := withReg s id { s.reg id with flag := false, tmr := t.width.trunc (s.reg id).rld, cnt := 0 }
        ((s.reg id).cb ≠ 0 →
          s.svc l = withFsm { u with events := s.events ++ [.fire l id (s.reg id).cb] } l (.wait id))
        ∧ ((s.reg id).cb = 0 → s.svc l = withFsm { u with nocb := true } l (.scan id.succ)))

/-- `44_dispatch.md` R197, R199, R200 and R201: the service of an EVENT source and of the PORTCHANGE source, with a handle and
without one. -/
def Obligations.EventAndPortChangeServiceFireOnEveryFlag : Prop :=
  ∀ (s : State) (l : Level) (id : SourceId),
    s.fsm l = .scan id.castSucc → (s.reg id).ip = l → (s.reg id).ie = true → (s.reg id).flag = true →
    (s.params.slot id = .event →
      let u := withReg s id { s.reg id with flag := false }
      ((s.reg id).cb ≠ 0 → s.svc l = withFsm { u with events := s.events ++ [.fire l id (s.reg id).cb] } l (.wait id))
      ∧ ((s.reg id).cb = 0 → s.svc l = withFsm { u with nocb := true } l (.scan id.succ)))
    ∧ (s.params.slot id = .portChange →
      let u := { withReg s id { s.reg id with flag := false } with chg := s.portv ^^^ s.prev, prev := s.portv }
      ((s.reg id).cb ≠ 0 → s.svc l = withFsm { u with events := s.events ++ [.fire l id (s.reg id).cb] } l (.wait id))
      ∧ ((s.reg id).cb = 0 → s.svc l = withFsm { u with nocb := true } l (.scan id.succ)))

/-- `44_dispatch.md` R202, R207 (with R195 to R201): from the first scan position, 33 scanner steps, each fired callback
returning at once, end the dispatch; every source pending at the start is serviced, every other one untouched, and the
events are exactly the FIREs of the firing sources in ascending identity order and then DONE. -/
def Obligations.DispatchServicesEveryPendingSourceInOrder : Prop :=
  ∀ (s : State) (l : Level), s.fsm l = .scan 0 → (l = .low → s.fsmHigh = .idle) →
    let t := (svcReturning l)^[33] s
    t.fsm l = .idle
    ∧ t.events = s.events ++ firesOf l s ++ [.done l]
    ∧ ∀ id : SourceId,
        (s.serviceable l id = true → t.reg id = servicedReg (s.params.timer? id) (s.reg id))
        ∧ (s.serviceable l id = false → t.reg id = s.reg id)

/-- `44_dispatch.md` R206: from a count of 0, after `m` services the count is `m` modulo `LIM + 1`, and the next service fires
exactly when it is a multiple of `LIM + 1`. -/
def Obligations.TimerFiresOnceEveryLimitPlusOneServices : Prop :=
  ∀ (w : TimerWidth) (r : SourceRegs) (m : Nat), r.cnt = 0 →
    let u := (SourceRegs.tick w)^[m] r
    u.cnt.toNat = m % (r.lim.toNat + 1) ∧ u.lim = r.lim
    ∧ (u.tickFires = true ↔ (m + 1) % (r.lim.toNat + 1) = 0)
    ∧ (u.tickFires = true → (u.tick w).cnt = 0)

/-! ## The period calculator -/

/-- `41_calculator.md` R120, R126, R128 to R132: for a slot that meets R11, the result is in range: the dividers are
offered ones, `1 <= N <= MAXW`, `R = MAXW - N` and `L < 2^48`; and it is INVALID exactly when the target is 0 (R124). -/
def Obligations.CalculatorResultIsInRange : Prop :=
  ∀ (fpb : Nat) (t : TimerParams) (m : CalcMode) (d : Nat), t.meetsR11 = true → fpb < 2 ^ 32 → d < 2 ^ 16 →
    (calculate fpb t m d = none ↔ targetCycles fpb m d = 0)
    ∧ ∀ c, calculate fpb t m d = some c →
        c.p ∈ t.pset ∧ c.q ∈ t.qset ∧ 1 ≤ c.n ∧ c.n ≤ t.width.maxw ∧ c.r = t.width.maxw - c.n ∧ c.l < 2 ^ 48

/-- `41_calculator.md` R135: the implied period exceeds the target by more than nothing and by at most one hardware tick. -/
def Obligations.ImpliedPeriodIsWithinOneTickAboveTheTarget : Prop :=
  ∀ (fpb : Nat) (t : TimerParams) (m : CalcMode) (d : Nat) (c : CalcResult), t.meetsR11 = true → calculate fpb t m d = some c →
    targetCycles fpb m d < c.period ∧ c.period ≤ targetCycles fpb m d + c.tick

/-- `41_calculator.md` R135, against the exact period `E = FPB D / UNIT_DIV` (both sides times `UNIT_DIV`): the truncation of the
cycles per unit loses less than one cycle a unit, and where `DMAX (MAXW + 1) > 65 535` the implied period is within one
hardware tick of `E`. The rule says "less than" one tick; it is exactly one tick at `FPB = 2^24`, SEC, `D = 65 535` on
TMR0 of RC1 (log entry 6), so the upper bound here is "at most". -/
def Obligations.ImpliedPeriodIsWithinOneTickOfTheExactPeriod : Prop :=
  ∀ (fpb : Nat) (t : TimerParams) (u : TimeUnit) (d : Nat) (c : CalcResult), t.meetsR11 = true → d < 2 ^ 16 →
    calculate fpb t (.time u) d = some c →
    targetCycles fpb (.time u) d * unitDiv u ≤ fpb * d
    ∧ fpb * d < (targetCycles fpb (.time u) d + d) * unitDiv u
    ∧ (65535 < dmax t * (t.width.maxw + 1) →
        c.period * unitDiv u ≤ fpb * d + c.tick * unitDiv u ∧ fpb * d < c.period * unitDiv u + c.tick * unitDiv u)

/-- `41_calculator.md` R136: no pair fits with a smaller software multiplier, and every pair that comes before the chosen one in
the order of R126 gives a count above MAXW with this multiplier. -/
def Obligations.CalculatorChoosesTheLeastMultiplierAndDivider : Prop :=
  ∀ (fpb : Nat) (t : TimerParams) (m : CalcMode) (d : Nat) (c : CalcResult), t.meetsR11 = true → calculate fpb t m d = some c →
    (∀ p ∈ t.pset, ∀ q ∈ t.qset, ∀ k, 1 ≤ k → k < c.l + 1 → t.width.maxw < targetCycles fpb m d / (p * q * k))
    ∧ (∀ p ∈ t.pset, ∀ q ∈ t.qset, p * q < c.p * c.q ∨ (p * q = c.p * c.q ∧ q < c.q) →
        t.width.maxw < targetCycles fpb m d / (p * q * (c.l + 1)))

/-- `41_calculator.md` R137: a target that fits the counter needs no scaling and no software counting. -/
def Obligations.ShortPeriodsNeedNoScaling : Prop :=
  ∀ (fpb : Nat) (t : TimerParams) (m : CalcMode) (d : Nat), t.meetsR11 = true →
    0 < targetCycles fpb m d → targetCycles fpb m d ≤ t.width.maxw →
    calculate fpb t m d = some ⟨1, 1, targetCycles fpb m d, 0, t.width.maxw - targetCycles fpb m d⟩

/-- `45_stimulus.md` R221, `41_calculator.md` R134: from the reload, with both divider counts at 0 and the flag clear, the flag is
set after exactly `PS * QS * (MAXW - R + 1)` edges and not before. -/
def Obligations.FlagIsSetEveryTickOfTheChannel : Prop :=
  ∀ (w : TimerWidth) (r : SourceRegs) (n : Nat),
    r.flag = false → r.psc = 0 → r.pst = 0 → 1 ≤ r.ps.toNat → 1 ≤ r.qs.toNat → r.rld.toNat ≤ w.maxw → r.tmr = r.rld →
    (((SourceRegs.edge w)^[n] r).flag = true ↔ r.ps.toNat * r.qs.toNat * (w.maxw - r.rld.toNat + 1) ≤ n)
    ∧ (n = r.ps.toNat * r.qs.toNat * (w.maxw - r.rld.toNat + 1) →
        (SourceRegs.edge w)^[n] r = { r with flag := true })

/-- `41_calculator.md` R134: a timer source registered afresh, whose every tick is serviced with no delay, has fired `n / P` times
after `n` input edges, where `P = PS * QS * (MAXW - R + 1) * (LIM + 1)`: once every `P` edges. -/
def Obligations.ServedTimerFiresOnceEveryImpliedPeriod : Prop :=
  ∀ (w : TimerWidth) (r : SourceRegs) (n : Nat),
    r.flag = false → r.psc = 0 → r.pst = 0 → r.cnt = 0 → 1 ≤ r.ps.toNat → 1 ≤ r.qs.toNat → r.rld.toNat ≤ w.maxw →
    r.tmr = r.rld →
    ((edgeServed w)^[n] (r, 0)).2
      = n / (r.ps.toNat * r.qs.toNat * (w.maxw - r.rld.toNat + 1) * (r.lim.toNat + 1))

/-! ## Encoding -/

/-- `30_encoding.md` R91 to R103: every well-formed instruction, with every operand at every value, is decoded from its own word,
on the port its opcode belongs to. -/
def Obligations.DecodeOfEncodeIsTheInstruction : Prop :=
  ∀ i : Instr, i.wellFormed = true → decodeWord (encode i) = .ok i ∧ decodeOn i.carrier (encode i) = .ok i

/-- `30_encoding.md` R93, R94: the only word that decodes to an instruction is its encoding, and it is well-formed; so no
must-be-zero bit is ignored and no two valid words mean the same. -/
def Obligations.EveryValidWordIsTheEncodingOfItsInstruction : Prop :=
  ∀ (w : Word) (i : Instr), decodeWord w = .ok i → encode i = w ∧ i.wellFormed = true

/-- `30_encoding.md` R103: the assembled word is the sum of its fields in their places. -/
def Obligations.AssembledWordIsTheSumOfItsFields : Prop :=
  ∀ (op : BitVec 4) (s : SourceId) (u : BitVec 3) (v : BitVec 1) (h : BitVec 16) (x : BitVec 32),
    (assemble op s u v h x).toNat
      = op.toNat * 2 ^ 60 + s.val * 2 ^ 55 + u.toNat * 2 ^ 52 + v.toNat * 2 ^ 51 + h.toNat * 2 ^ 32 + x.toNat

/-- `30_encoding.md` R95, R97, R99: the reserved values: opcode 0xB on every port, an opcode on a port that does not carry it,
UNIT 3 to 7, selectors 0x0F and 0x17 to 0xFF. -/
def Obligations.ReservedValuesSpellNoWord : Prop :=
  (∀ w : Word, opField w = 0xB#4 → ∀ p, ∃ e, decodeOn p w = .error e)
  ∧ (∀ (w : Word) (p : Port), routePort w ≠ p → decodeOn p w = .error .wrongPort)
  ∧ (∀ w : Word, opField w = 0x1#4 → 3 ≤ (unitField w).toNat → ∃ e, decodeWord w = .error e)
  ∧ (∀ w : Word, opField w = 0x8#4 → (sel8Field w).toNat = 0x0F ∨ 0x17 ≤ (sel8Field w).toNat →
      ∃ e, decodeWord w = .error e)

/-- `30_encoding.md` R106: the expansion of `clk n` for any `n` runs exactly `n` cycles. -/
def Obligations.PseudoClkRunsExactlyItsCycles : Prop :=
  ∀ n : Nat, ∃ ns : List (BitVec 32), pseudoClk n = ns.map .clk ∧ (ns.map (·.toNat)).sum = n

/-- A sanity check of the decoder on words of `95_test_vectors.md` V2. -/
def Obligations.DecoderReadsTheWordsOfTheVectors : Prop :=
  decodeWord 0x1010000100001000#64 = .ok (.regt 0 .ms 1 0x1000)
  ∧ decodeWord 0x2080000300007000#64 = .ok (.regc 1 3 0x7000)
  ∧ decodeWord 0x3680000000004000#64 = .ok (.rege 13 0x4000)
  ∧ decodeWord 0x8000000C00000000#64 = .ok (.query 0 (.source .tmr))
  ∧ decodeWord 0x9008000000000000#64 = .ok (.disp .high)
  ∧ decodeWord 0xC00000000000BB80#64 = .ok (.clk 48000)
  ∧ decodeWord 0x1018000100001000#64 = .error .mustBeZero

/-! ## Whole-machine rules -/

/-- No word that is consumed ends in a fault or a refusal: each of the fifteen completes, in every state, with every operand
(`60_exceptions.md`, introduction: "The block raises no traps"). -/
def Obligations.EveryWordCompletes : Prop :=
  ∀ (i : Instr) (s : State), ∃ t, exec i s = .next t

/-- `60_exceptions.md` R241 and R248: a word consumed on the command or vector port is answered ILLEGAL exactly when it spells no
word of that port that is legal for the record; on the stimulus port it is refused exactly then. -/
def Obligations.IllegalWordsAreExactlyTheOnesThatSpellNoLegalWord : Prop :=
  ∀ (p : Port) (w : Word) (s t : State), consume p w s = .next t →
    let legal := ∃ i, decodeOn p w = .ok i ∧ i.legal s.params = true
    (p ≠ .stimulus → (¬ legal ↔ t = { s with responses := s.responses ++ [⟨.illegal, 0⟩] }))
    ∧ (p = .stimulus → (¬ legal → t = { s with refused := true }) ∧ (legal → t.refused = s.refused))

/-- `10_state.md` R54: every consumed command-port or vector-port word gives exactly one response, a stimulus word none; the data
is 0 but in an OK answer of TSTF or QUERY; and what a word does never depends on the responses given before. -/
def Obligations.OneResponseForEachCommandAndVectorWord : Prop :=
  ∀ (p : Port) (w : Word) (s t : State), consume p w s = .next t →
    (p ≠ .stimulus → ∃ r, t.responses = s.responses ++ [r]
        ∧ (r.data ≠ 0 → r.status = .ok ∧ ∃ i, decodeOn p w = .ok i ∧ answersData i = true))
    ∧ (p = .stimulus → t.responses = s.responses)
    ∧ ∀ earlier : List Response,
        consume p w { s with responses := earlier ++ s.responses } = .next { t with responses := earlier ++ t.responses }

/-- `60_exceptions.md` R246, `42_registration.md` R158: a word answered with any status other than OK changes no state and emits no
event; only its response is produced. -/
def Obligations.WordsNotAnsweredOkChangeNothing : Prop :=
  ∀ (p : Port) (w : Word) (s t : State) (r : Response), consume p w s = .next t → t.responses = s.responses ++ [r] →
    r.status ≠ .ok → t = { s with responses := t.responses }

/-- `20_memory.md` R71 and R76, `42_registration.md` R156, the frame of every word: only CLK reaches a source the word does not name; TSTF and QUERY only
answer; CHG, NOCB and the events are the scanner's; PREV is also REGE's; PORTV is PORT's; the FSMs are DISP's and
CBRET's; the priorities are SETPRI's; the record, the schedule and the words waiting are no word's, and the mark is no
command or vector word's. -/
def Obligations.WordsReachOnlyWhatTheyName : Prop :=
  ∀ (i : Instr) (s t : State), exec i s = .next t →
    SameInputs s t ∧ (i.carrier ≠ .stimulus → t.refused = s.refused)
    ∧ t.chg = s.chg ∧ t.nocb = s.nocb ∧ t.events = s.events
    ∧ ((∀ id cb, i ≠ .rege id cb) → t.prev = s.prev)
    ∧ ((∀ v, i ≠ .port v) → t.portv = s.portv)
    ∧ ((∀ l, i ≠ .disp l ∧ i ≠ .cbret l) → t.fsmHigh = s.fsmHigh ∧ t.fsmLow = s.fsmLow)
    ∧ ((∀ n, i ≠ .clk n) → (∀ v, i ≠ .port v) → ∀ id, namedSource i ≠ some id → t.reg id = s.reg id)
    ∧ ((∀ j l, i ≠ .setpri j l) → ∀ id, (t.reg id).ip = (s.reg id).ip)

/-- `42_registration.md` R156, `10_state.md` R35 and R36: SETPRI alone writes a priority, a registration alone writes a callback
handle: no scanner step writes either. -/
def Obligations.ScannerKeepsPriorityHandleAndEnables : Prop :=
  ∀ (s : State) (l : Level) (id : SourceId),
    let r := (s.svc l).reg id
    r.ip = (s.reg id).ip ∧ r.cb = (s.reg id).cb ∧ r.ie = (s.reg id).ie ∧ r.used = (s.reg id).used
    ∧ r.lim = (s.reg id).lim ∧ r.rld = (s.reg id).rld ∧ r.ps = (s.reg id).ps ∧ r.qs = (s.reg id).qs
    ∧ r.ton = (s.reg id).ton ∧ r.cs = (s.reg id).cs ∧ r.psc = (s.reg id).psc ∧ r.pst = (s.reg id).pst
    ∧ SameInputs s (s.svc l) ∧ (s.svc l).responses = s.responses ∧ (s.svc l).portv = s.portv

/-- `43_control.md` R171 and R176: disabling a disabled source changes nothing (R56: its `USED` is 0 too); a disable followed by an
enable at once gives back the registered source as it was; and with any steps between, none of which registers the source,
it has after the disable, all the while and after the enable the callback, limit, reload and counter it had. The last step
of `run` may be the one that enables it. What a service does with these is said by
`TimerServiceReloadsCountsAndFiresPastTheLimit` and `EventAndPortChangeServiceFireOnEveryFlag`. -/
def Obligations.DisableIsIdempotentAndReenableResumes : Prop :=
  ∀ (s : State) (id : SourceId), s.params.present id = true →
    ((s.reg id).ie = false → (s.reg id).used = (s.reg id).ie → Answers (.seten id false) s .ok 0 s)
    ∧ ∀ t, exec (.seten id false) s = .next t →
        ((s.reg id).used = true → (s.reg id).ie = true →
          Answers (.seten id true) t .ok 0 { s with responses := t.responses })
        ∧ KeepsRegistration id s t
        ∧ ∀ (run : Nat → State) (n : Nat), run 0 = t →
            (∀ k < n, step (run k) = .next (run (k + 1)) ∧ ((run k).reg id).ie = false ∧ ¬ Registers id (run k) (run (k + 1))) →
            KeepsRegistration id s (run n)

/-- `43_control.md` R177: after a disable, each registration word succeeds (with arguments it can take) and the source has the new
callback. -/
def Obligations.DisableThenRegisterReplacesTheCallback : Prop :=
  ∀ (s t : State) (id : SourceId) (cb : Handle), cb ≠ 0 → exec (.seten id false) s = .next t →
    let replaced := fun (i : Instr) => ∃ u, Answers i t .ok 0 u ∧ (u.reg id).cb = cb ∧ (u.reg id).used = true ∧ (u.reg id).ie = true
    (∀ p u d c, s.params.timer? id = some p → calculate s.params.fpb p (.time u) d.toNat = some c → replaced (.regt id u d cb))
    ∧ (∀ p n c, s.params.timer? id = some p → p.extok = true → calculate s.params.fpb p .edge n.toNat = some c →
        replaced (.regc id n cb))
    ∧ (s.params.slot id = .event ∨ s.params.slot id = .portChange → replaced (.rege id cb))

/-! ## The step -/

/-- A step consumes the word at the head of the scheduled port and runs what it decodes to, unless the port is held
(`00_scope.md` R16, `44_dispatch.md` R190). The schedule is the model's choice (log entry 2). -/
def Obligations.StepRunsTheDecodedWord : Prop :=
  ∀ (s : State) (p : Port) (w : Word) (i : Instr) (rest : List Move),
    s.refused = false → s.sched = .word p :: rest → headOf p s.inbox = some w → decodeOn p w = .ok i →
    (p = .command → s.held = false) →
    step s = exec i { s with sched := rest, inbox := dropHead p s.inbox }

/-- `30_encoding.md` R100: a word offered goes to the port its opcode belongs to. The word `withFetchWord` places is consumed by
the very next step, and what runs is its instruction on the state as it was. That a word is loaded by placing it at the
head of its port and scheduling that port is the model's choice (log entry 2). -/
def Obligations.OfferedWordRunsInTheNextStep : Prop :=
  ∀ (s : State) (nbits w : Nat) (i : Instr),
    s.refused = false → decodeTableWord nbits w = some i → (i.carrier = .command → s.held = false) →
    step (s.withFetchWord nbits w) = exec i s

/-- `44_dispatch.md` R190, `00_scope.md` R14: a held word is not consumed and nothing changes; only the move scheduled is spent. The
hold is exactly: the innermost level in a dispatch is scanning. The schedule is the model's choice (log entry 2). -/
def Obligations.HeldWordStaysAtItsPort : Prop :=
  (∀ s : State, s.held = true ↔
    (∃ i, s.fsmHigh = .scan i) ∨ (s.fsmHigh = .idle ∧ ∃ i, s.fsmLow = .scan i))
  ∧ ∀ (s : State) (rest : List Move), s.refused = false → s.sched = .word .command :: rest → s.held = true →
    step s = .next { s with sched := rest }

/-- `30_encoding.md` R94, R99, R101 and `60_exceptions.md` R248: a word that spells no valid word on its port is answered ILLEGAL on
the command and vector ports and refused on the stimulus port, and changes nothing else. The schedule is the model's choice
(log entry 2). -/
def Obligations.InvalidWordIsAnsweredIllegalOrRefused : Prop :=
  ∀ (s : State) (p : Port) (w : Word) (e : DecodeError) (rest : List Move),
    s.refused = false → s.sched = .word p :: rest → headOf p s.inbox = some w → decodeOn p w = .error e →
    (p = .command → s.held = false) →
    let u := { s with sched := rest, inbox := dropHead p s.inbox }
    (p ≠ .stimulus → step s = .next { u with responses := s.responses ++ [⟨.illegal, 0⟩] })
    ∧ (p = .stimulus → step s = .next { u with refused := true })

/-- `44_dispatch.md` R194: the scheduled scanner step is taken exactly where it is enabled: HIGH while it scans, LOW while it scans
and HIGH is idle. The schedule is the model's choice (log entry 2). -/
def Obligations.ScannerMovesExactlyWhereItIsEnabled : Prop :=
  ∀ (s : State) (l : Level) (rest : List Move), s.refused = false → s.sched = .svc l :: rest →
    let u := { s with sched := rest }
    ((∃ i, s.fsm l = .scan i) → (l = .low → s.fsmHigh = .idle) → step s = .next (u.svc l))
    ∧ ((∀ i, s.fsm l ≠ .scan i) ∨ (l = .low ∧ s.fsmHigh ≠ .idle) → step s = .next u)

/-- `10_state.md` R52: once the REFUSED mark is set, no further step is taken; and no step is taken with a record that defines no
block (`60_exceptions.md` R248; `Params.wf` is R11 and what log entry 3 adds to it). -/
def Obligations.NoStepOnceRefused : Prop :=
  (∀ s : State, s.refused = true → step s = .refused .refusedMark)
  ∧ ∀ p : Params, p.wf = false → step (State.resetWith p) = .refused .refusedMark

/-- The only stops of a step (log entries 2 and 5): the REFUSED mark, and rest in a faulted state. -/
def Obligations.StepStopsOnlyWhenRefusedOrFaultedAtRest : Prop :=
  ∀ s : State,
    (∀ r, step s = .refused r ↔ s.refused = true ∧ r = .refusedMark)
    ∧ (∀ f, step s = .fault f ↔ s.refused = false ∧ s.AtRest ∧ s.Faulted ∧ f = .nocbAtRest)

/-- `95_test_vectors.md`, conventions, with `44_dispatch.md` R194 (past the end of a schedule the eager one goes on: log entry 2):
with nothing scheduled the step is the scanner's at HIGH where HIGH scans, else the scanner's at LOW where it is enabled,
else the consumption of the word sent first, which is never held, else rest: the state itself, or the fault of log
entry 5 where NOCB is set. -/
def Obligations.UnscheduledStepIsEagerAndNeverHolds : Prop :=
  (∀ (s : State) (p : Port), eagerMove s = some (.word p) → portHeld p s = false ∧ ∃ w, headOf p s.inbox = some w)
  ∧ ∀ s : State, s.refused = false → s.sched = [] →
      ((∃ i, s.fsmHigh = .scan i) → step s = .next (s.svc .high))
      ∧ (s.fsmHigh = .idle → (∃ i, s.fsmLow = .scan i) → step s = .next (s.svc .low))
      ∧ ((∀ i, s.fsmHigh ≠ .scan i) → s.fsmHigh ≠ .idle ∨ (∀ i, s.fsmLow ≠ .scan i) →
          (∀ p w rest, s.inbox = (p, w) :: rest →
            let u := { s with inbox := rest }
            (∀ i, decodeOn p w = .ok i → step s = exec i u)
            ∧ (∀ e, decodeOn p w = .error e →
                (p ≠ .stimulus → step s = .next { u with responses := s.responses ++ [⟨.illegal, 0⟩] })
                ∧ (p = .stimulus → step s = .next { u with refused := true })))
          ∧ (s.inbox = [] → s.nocb = false → step s = .next s)
          ∧ (s.inbox = [] → s.nocb = true → step s = .fault .nocbAtRest))

/-- `44_dispatch.md` R204 and `60_exceptions.md` R251: while HIGH is in a dispatch, no step of any agent moves the LOW FSM or emits
a LOW event. -/
def Obligations.HighDispatchRunsBeforeLowContinues : Prop :=
  ∀ s t : State, s.fsmHigh ≠ .idle → step s = .next t →
    t.fsmLow = s.fsmLow ∧ ∃ es, t.events = s.events ++ es ∧ ∀ e ∈ es, e.level = .high

/-- `10_state.md` R51, R42 (with `45_stimulus.md` R222), R59 and R55: what no step takes back: NOCB once set, a channel's on bit
once set, the parameter record, and the events and responses already given. -/
def Obligations.StepNeverTakesBack : Prop :=
  ∀ s t : State, step s = .next t →
    (s.nocb = true → t.nocb = true)
    ∧ (∀ id, (s.reg id).ton = true → (t.reg id).ton = true)
    ∧ t.params = s.params
    ∧ (∃ es, t.events = s.events ++ es ∧ es.length ≤ 1)
    ∧ (∃ rs, t.responses = s.responses ++ rs ∧ rs.length ≤ 1)

/-- `10_state.md` R60, for every record that defines a block: its reset state meets both invariants; `State.reset` is the
instance of RC1. -/
def Obligations.ResetMeetsTheInvariant : Prop :=
  (∀ p : Params, p.wf = true → (State.resetWith p).Inv ∧ (State.resetWith p).StreamInv)
  ∧ State.reset.Inv ∧ State.reset.StreamInv

/-- `10_state.md` section 2, R39, R44, R56 to R58, `44_dispatch.md` R201: the invariant of the reachable states is kept by every
step from every state that meets it. -/
def Obligations.EveryStepKeepsTheInvariant : Prop :=
  ∀ s t : State, s.Inv → step s = .next t → t.Inv

/-- `44_dispatch.md` R193, R195, R201, R202 and `10_state.md` R55: the event stream agrees with the FSMs after every step: an idle
level's last event is DONE, a waiting level's is the FIRE it waits for, and a scanning level has fired only identities it
has passed. -/
def Obligations.EveryStepKeepsTheEventStreamInOrder : Prop :=
  ∀ s t : State, s.StreamInv → step s = .next t → t.StreamInv
end

