-- ==== Sys2Proof/Laws/Calculator.lean ====
section
/-! SUPPORT. What the period calculator is built from: the candidate list, the largest divider, and what a result says. -/

namespace Sys2Proof

/-- The candidates are exactly the pairs offered (`41_calculator.md` R126). -/
theorem TimerParams.mem_pairs {t : TimerParams} {c : Nat × Nat} : c ∈ t.pairs ↔ c.1 ∈ t.pset ∧ c.2 ∈ t.qset := by
  simp only [TimerParams.pairs, List.mem_insertionSort, List.mem_flatMap, List.mem_map]
  constructor
  · rintro ⟨p, hp, q, hq, rfl⟩
    exact ⟨hp, hq⟩
  · rintro ⟨hp, hq⟩
    exact ⟨c.1, hp, c.2, hq, rfl⟩

theorem pairLe_total (a b : Nat × Nat) : pairLe a b ∨ pairLe b a := by
  unfold pairLe; omega

theorem pairLe_trans {a b c : Nat × Nat} (h₁ : pairLe a b) (h₂ : pairLe b c) : pairLe a c := by
  unfold pairLe at *; omega

/-- The candidates are sorted (`41_calculator.md` R126). -/
theorem TimerParams.pairs_sorted (t : TimerParams) : t.pairs.Pairwise pairLe := by
  have : Std.Total pairLe := ⟨pairLe_total⟩
  have : IsTrans (Nat × Nat) pairLe := ⟨fun _ _ _ => pairLe_trans⟩
  exact List.pairwise_insertionSort pairLe _

/-- The parts of R11. -/
theorem TimerParams.meetsR11_iff {t : TimerParams} : t.meetsR11 = true ↔
    1 ∈ t.pset ∧ 1 ∈ t.qset ∧ (∀ p ∈ t.pset, 1 ≤ p) ∧ (∀ q ∈ t.qset, 1 ≤ q)
      ∧ stepsAtMost t.width.maxw (t.pairs.map fun c => c.1 * c.2) = true := by
  simp only [TimerParams.meetsR11, Bool.and_eq_true, decide_eq_true_eq, List.all_eq_true, and_assoc]

/-- A well-formed TIMER slot meets R11 and its dividers fit their registers. -/
theorem TimerParams.wf_iff {t : TimerParams} : t.wf = true ↔
    t.meetsR11 = true ∧ (∀ p ∈ t.pset, p < 2 ^ 16) ∧ (∀ q ∈ t.qset, q < 2 ^ 16) := by
  simp only [TimerParams.wf, Bool.and_eq_true, decide_eq_true_eq, List.all_eq_true, and_assoc]

/-- Two neighbours of a list that `stepsAtMost` accepts. -/
theorem stepsAtMost_neighbours {m a b : Nat} {l₁ l₂ : List Nat} (h : stepsAtMost m (l₁ ++ a :: b :: l₂) = true) :
    b ≤ m * a := by
  induction l₁ with
  | nil => simp [stepsAtMost] at h; exact h.1
  | cons x xs ih =>
    cases xs with
    | nil => simp [stepsAtMost] at h; exact h.2.1
    | cons y ys => simp [stepsAtMost] at h; exact ih h.2

namespace Machine

theorem foldl_max_ge (l : List Nat) (a : Nat) : a ≤ l.foldl max a ∧ ∀ x ∈ l, x ≤ l.foldl max a := by
  induction l generalizing a with
  | nil => simp
  | cons y ys ih =>
    obtain ⟨h₁, h₂⟩ := ih (max a y)
    simp only [List.foldl_cons, List.mem_cons]
    exact ⟨by omega, fun x hx => hx.elim (fun e => by omega) (h₂ x)⟩

theorem foldl_max_mem (l : List Nat) (a : Nat) : l.foldl max a = a ∨ l.foldl max a ∈ l := by
  induction l generalizing a with
  | nil => simp
  | cons y ys ih =>
    simp only [List.foldl_cons, List.mem_cons]
    rcases ih (max a y) with h | h
    · rw [h]
      rcases Nat.le_total a y with h' | h' <;> simp [h']
    · exact .inr (.inr h)

/-- Every product is at most the largest divider (`41_calculator.md` R127). -/
theorem le_dmax {t : TimerParams} {p q : Nat} (hp : p ∈ t.pset) (hq : q ∈ t.qset) : p * q ≤ dmax t :=
  (foldl_max_ge _ 0).2 _ (List.mem_map.2 ⟨(p, q), TimerParams.mem_pairs.2 ⟨hp, hq⟩, rfl⟩)

/-- The largest divider is a product, where a pair is offered. -/
theorem dmax_mem {t : TimerParams} (h : t.meetsR11 = true) : ∃ p ∈ t.pset, ∃ q ∈ t.qset, p * q = dmax t := by
  obtain ⟨h₁, h₂, -⟩ := TimerParams.meetsR11_iff.1 h
  have h₃ := le_dmax h₁ h₂
  rcases foldl_max_mem (t.pairs.map fun c => c.1 * c.2) 0 with h₄ | h₄
  · exact absurd h₄ (by unfold dmax at h₃; omega)
  · obtain ⟨c, hc, e⟩ := List.mem_map.1 h₄
    exact ⟨c.1, (TimerParams.mem_pairs.1 hc).1, c.2, (TimerParams.mem_pairs.1 hc).2, e⟩

/-- The largest divider is at least 1. -/
theorem dmax_pos {t : TimerParams} (h : t.meetsR11 = true) : 1 ≤ dmax t := by
  obtain ⟨h₁, h₂, -⟩ := TimerParams.meetsR11_iff.1 h
  exact le_dmax h₁ h₂

/-- What a result of the calculator says (`41_calculator.md` R133). -/
theorem calculate_eq_some {fpb : Nat} {t : TimerParams} {m : CalcMode} {d : Nat} {c : CalcResult}
    (h : calculate fpb t m d = some c) :
    targetCycles fpb m d ≠ 0 ∧ choosePair t (targetCycles fpb m d) (softMultiplier t (targetCycles fpb m d)) = some (c.p, c.q)
      ∧ c.n = targetCycles fpb m d / (c.p * c.q * softMultiplier t (targetCycles fpb m d)) ∧ c.n ≠ 0
      ∧ c.l = softMultiplier t (targetCycles fpb m d) - 1 ∧ c.r = t.width.maxw - c.n := by
  unfold calculate at h
  simp only at h
  split at h
  · cases h
  · rename_i h₀
    obtain ⟨e, h₁, h₂⟩ := Option.bind_eq_some_iff.1 h
    unfold settle at h₂
    simp only at h₂
    split at h₂
    · cases h₂
    · rename_i h₃
      cases h₂
      exact ⟨h₀, h₁, rfl, h₃, rfl, rfl⟩

/-- What the chosen pair says (`41_calculator.md` R129): it is offered, its count fits, and no pair before it fits. -/
theorem choosePair_eq_some {t : TimerParams} {target k : Nat} {c : Nat × Nat} (h : choosePair t target k = some c) :
    c.1 ∈ t.pset ∧ c.2 ∈ t.qset ∧ target / (c.1 * c.2 * k) ≤ t.width.maxw
      ∧ ∃ as bs, t.pairs = as ++ c :: bs ∧ ∀ a ∈ as, t.width.maxw < target / (a.1 * a.2 * k) := by
  obtain ⟨h₁, as, bs, h₂, h₃⟩ := List.find?_eq_some_iff_append.1 h
  have hc : c ∈ t.pairs := by simp [h₂]
  refine ⟨(TimerParams.mem_pairs.1 hc).1, (TimerParams.mem_pairs.1 hc).2, by simpa using h₁, as, bs, h₂, fun a ha => ?_⟩
  simpa using h₃ a ha

theorem softMultiplier_pos (t : TimerParams) (target : Nat) : 0 < softMultiplier t target := Nat.succ_pos _

/-- The multiplier is large enough for the largest divider (`41_calculator.md` R128). -/
theorem lt_dmax_softMultiplier {t : TimerParams} (h : t.meetsR11 = true) (target : Nat) :
    target < dmax t * (t.width.maxw + 1) * softMultiplier t target := by
  have := Nat.lt_div_mul_add (a := target) (Nat.mul_pos (dmax_pos h) t.width.maxw.succ_pos)
  rw [softMultiplier, Nat.mul_add, Nat.mul_one, Nat.mul_comm _ (target / _)]
  exact this

/-- And no larger than that asks (`41_calculator.md` R128). -/
theorem dmax_pred_softMultiplier_le (t : TimerParams) (target : Nat) :
    dmax t * (t.width.maxw + 1) * (softMultiplier t target - 1) ≤ target := by
  rw [softMultiplier, Nat.add_sub_cancel, Nat.mul_comm]
  exact Nat.div_mul_le_self _ _

end Machine

end Sys2Proof
end

