-- ==== Sys2Proof/Laws/Encoding.lean ====
section
/-! SUPPORT. Every field of an assembled word reads back what was put there, and the codes of the operands read back. -/

namespace Sys2Proof

@[simp] theorem opField_assemble (o : BitVec 4) (s : SourceId) (u : BitVec 3) (b : BitVec 1) (h : BitVec 16) (x : BitVec 32) :
    opField (assemble o s u b h x) = o := by
  apply BitVec.eq_of_getLsbD_eq
  intro i hi
  simp only [opField, assemble, BitVec.getLsbD_extractLsb', BitVec.getLsbD_append]
  interval_cases i <;> simp

@[simp] theorem unitField_assemble (o : BitVec 4) (s : SourceId) (u : BitVec 3) (b : BitVec 1) (h : BitVec 16) (x : BitVec 32) :
    unitField (assemble o s u b h x) = u := by
  apply BitVec.eq_of_getLsbD_eq
  intro i hi
  simp only [unitField, assemble, BitVec.getLsbD_extractLsb', BitVec.getLsbD_append]
  interval_cases i <;> simp

@[simp] theorem valField_assemble (o : BitVec 4) (s : SourceId) (u : BitVec 3) (b : BitVec 1) (h : BitVec 16) (x : BitVec 32) :
    valField (assemble o s u b h x) = b := by
  apply BitVec.eq_of_getLsbD_eq
  intro i hi
  simp only [valField, assemble, BitVec.getLsbD_extractLsb', BitVec.getLsbD_append]
  interval_cases i
  simp

@[simp] theorem imm16Field_assemble (o : BitVec 4) (s : SourceId) (u : BitVec 3) (b : BitVec 1) (h : BitVec 16) (x : BitVec 32) :
    imm16Field (assemble o s u b h x) = h := by
  apply BitVec.eq_of_getLsbD_eq
  intro i hi
  simp only [imm16Field, assemble, BitVec.getLsbD_extractLsb', BitVec.getLsbD_append]
  interval_cases i <;> simp

@[simp] theorem imm32Field_assemble (o : BitVec 4) (s : SourceId) (u : BitVec 3) (b : BitVec 1) (h : BitVec 16) (x : BitVec 32) :
    imm32Field (assemble o s u b h x) = x := by
  apply BitVec.eq_of_getLsbD_eq
  intro i hi
  simp only [imm32Field, assemble, BitVec.getLsbD_extractLsb', BitVec.getLsbD_append]
  interval_cases i <;> simp

@[simp] theorem srcField_assemble (o : BitVec 4) (s : SourceId) (u : BitVec 3) (b : BitVec 1) (h : BitVec 16) (x : BitVec 32) :
    srcField (assemble o s u b h x) = s := by
  have : (assemble o s u b h x).extractLsb' 55 5 = BitVec.ofFin s := by
    apply BitVec.eq_of_getLsbD_eq
    intro i hi
    simp only [assemble, BitVec.getLsbD_extractLsb', BitVec.getLsbD_append]
    interval_cases i <;> simp
  rw [srcField, this]

@[simp] theorem sel8Field_assemble (o : BitVec 4) (s : SourceId) (u : BitVec 3) (b : BitVec 1) (v : BitVec 8) (x : BitVec 32) :
    sel8Field (assemble o s u b (imm16OfSel8 v) x) = v := by
  apply BitVec.eq_of_getLsbD_eq
  intro i hi
  simp only [sel8Field, imm16OfSel8, assemble, BitVec.getLsbD_extractLsb', BitVec.getLsbD_append]
  interval_cases i <;> simp

@[simp] theorem Opcode.ofBits_bits (o : Opcode) : Opcode.ofBits o.bits = some o := by cases o <;> rfl

theorem Opcode.bits_of_ofBits {b : BitVec 4} {o : Opcode} (h : Opcode.ofBits b = some o) : o.bits = b := by
  revert h; revert o b; decide

@[simp] theorem TimeUnit.ofBits_bits (u : TimeUnit) : TimeUnit.ofBits u.bits = some u := by cases u <;> rfl

@[simp] theorem Selector.ofCode_code (sel : Selector) : Selector.ofCode sel.code = some sel := by
  rcases sel with f | g
  · cases f <;> rfl
  · cases g <;> rfl

@[simp] theorem enableOfVal_valOfEnable (b : Bool) : enableOfVal (valOfEnable b) = b := by cases b <;> rfl
@[simp] theorem levelOfVal_valOfLevel (l : Level) : levelOfVal (valOfLevel l) = l := by cases l <;> rfl
theorem valOfEnable_enableOfVal (v : BitVec 1) : valOfEnable (enableOfVal v) = v := by revert v; decide
theorem valOfLevel_levelOfVal (v : BitVec 1) : valOfLevel (levelOfVal v) = v := by revert v; decide

/-- A word that decodes names its instruction's opcode, has that format's fixed bits, and its operands read so. -/
theorem decodeWord_ok {w : Word} {i : Instr} (h : decodeWord w = .ok i) :
    Opcode.ofBits (opField w) = some i.opcode ∧ w &&& i.opcode.format.mask = i.opcode.pattern
      ∧ operandsOf w i.opcode = .ok i := by
  unfold decodeWord at h
  split at h
  · cases h
  · rename_i o ho
    split at h
    · rename_i hm
      have e : i.opcode = o := by
        cases o <;> simp only [operandsOf, queryOf] at h <;> (try split at h) <;> (try split at h) <;> cases h <;> rfl
      rw [e]
      exact ⟨ho, hm, h⟩
    · cases h

/-- A word that decodes belongs to its instruction's port. -/
theorem routePort_of_decodeWord {w : Word} {i : Instr} (h : decodeWord w = .ok i) : routePort w = i.carrier := by
  simp only [routePort, (decodeWord_ok h).1, Instr.carrier]

end Sys2Proof
end

