-- ==== Sys2Proof/Laws/State.lean ====
section
/-! SUPPORT. One lemma for each field under each update of the state, so that no later proof unfolds a record update. -/

namespace Sys2Proof.Machine

/-! ## The register file -/

@[simp] theorem State.reg_setReg_self (s : State) (id : SourceId) (r : SourceRegs) : (s.setReg id r).reg id = r := by
  simp [State.reg, State.setReg]

theorem State.reg_setReg (s : State) (id j : SourceId) (r : SourceRegs) :
    (s.setReg id r).reg j = if id = j then r else s.reg j := by
  simp [State.reg, State.setReg, Vector.getElem_set, Fin.ext_iff]

@[simp] theorem State.reg_setReg_ne (s : State) {id j : SourceId} (r : SourceRegs) (h : j ≠ id) :
    (s.setReg id r).reg j = s.reg j := by
  simp [State.reg_setReg, Ne.symm h]

/-- Two register files with equal fields at every identity are equal. -/
theorem src_ext {v w : Vector SourceRegs 32} (h : ∀ id : SourceId, v[id] = w[id]) : v = w := by
  ext i hi : 1
  exact h ⟨i, hi⟩

/-! A record update written out in full: the field functions read the field given. -/

@[simp] theorem State.reg_of_src {s : State} {a b c : BitVec 8} {d e : Fsm} {f g : Bool} {h : List Event}
    {i : List Response} {k : List (Port × Word)} {l : List Move} {m : Params} (j : SourceId) :
    State.reg ⟨s.src, a, b, c, d, e, f, g, h, i, k, l, m⟩ j = s.reg j := rfl
@[simp] theorem State.fsm_mk {v : Vector SourceRegs 32} {a b c : BitVec 8} {d e : Fsm} {f g : Bool} {h : List Event}
    {i : List Response} {k : List (Port × Word)} {l : List Move} {m : Params} (n : Level) :
    State.fsm ⟨v, a, b, c, d, e, f, g, h, i, k, l, m⟩ n = match n with | .low => e | .high => d := by cases n <;> rfl

@[simp] theorem State.setReg_portv (s : State) (id : SourceId) (r : SourceRegs) : (s.setReg id r).portv = s.portv := rfl
@[simp] theorem State.setReg_prev (s : State) (id : SourceId) (r : SourceRegs) : (s.setReg id r).prev = s.prev := rfl
@[simp] theorem State.setReg_chg (s : State) (id : SourceId) (r : SourceRegs) : (s.setReg id r).chg = s.chg := rfl
@[simp] theorem State.setReg_fsmHigh (s : State) (id : SourceId) (r : SourceRegs) : (s.setReg id r).fsmHigh = s.fsmHigh := rfl
@[simp] theorem State.setReg_fsmLow (s : State) (id : SourceId) (r : SourceRegs) : (s.setReg id r).fsmLow = s.fsmLow := rfl
@[simp] theorem State.setReg_nocb (s : State) (id : SourceId) (r : SourceRegs) : (s.setReg id r).nocb = s.nocb := rfl
@[simp] theorem State.setReg_refused (s : State) (id : SourceId) (r : SourceRegs) : (s.setReg id r).refused = s.refused := rfl
@[simp] theorem State.setReg_events (s : State) (id : SourceId) (r : SourceRegs) : (s.setReg id r).events = s.events := rfl
@[simp] theorem State.setReg_responses (s : State) (id : SourceId) (r : SourceRegs) : (s.setReg id r).responses = s.responses := rfl
@[simp] theorem State.setReg_inbox (s : State) (id : SourceId) (r : SourceRegs) : (s.setReg id r).inbox = s.inbox := rfl
@[simp] theorem State.setReg_sched (s : State) (id : SourceId) (r : SourceRegs) : (s.setReg id r).sched = s.sched := rfl
@[simp] theorem State.setReg_params (s : State) (id : SourceId) (r : SourceRegs) : (s.setReg id r).params = s.params := rfl

@[simp] theorem State.initial_reg (p : Params) (b : Bool) (id : SourceId) :
    (State.initial p b).reg id = SourceRegs.reset p.ipReset := by
  simp [State.initial, State.reg]

/-! ## The outputs and the mark -/

@[simp] theorem State.respond_src (s : State) (st : Status) (d : BitVec 64) : (s.respond st d).src = s.src := rfl
@[simp] theorem State.respond_portv (s : State) (st : Status) (d : BitVec 64) : (s.respond st d).portv = s.portv := rfl
@[simp] theorem State.respond_prev (s : State) (st : Status) (d : BitVec 64) : (s.respond st d).prev = s.prev := rfl
@[simp] theorem State.respond_chg (s : State) (st : Status) (d : BitVec 64) : (s.respond st d).chg = s.chg := rfl
@[simp] theorem State.respond_fsmHigh (s : State) (st : Status) (d : BitVec 64) : (s.respond st d).fsmHigh = s.fsmHigh := rfl
@[simp] theorem State.respond_fsmLow (s : State) (st : Status) (d : BitVec 64) : (s.respond st d).fsmLow = s.fsmLow := rfl
@[simp] theorem State.respond_nocb (s : State) (st : Status) (d : BitVec 64) : (s.respond st d).nocb = s.nocb := rfl
@[simp] theorem State.respond_refused (s : State) (st : Status) (d : BitVec 64) : (s.respond st d).refused = s.refused := rfl
@[simp] theorem State.respond_events (s : State) (st : Status) (d : BitVec 64) : (s.respond st d).events = s.events := rfl
@[simp] theorem State.respond_inbox (s : State) (st : Status) (d : BitVec 64) : (s.respond st d).inbox = s.inbox := rfl
@[simp] theorem State.respond_sched (s : State) (st : Status) (d : BitVec 64) : (s.respond st d).sched = s.sched := rfl
@[simp] theorem State.respond_params (s : State) (st : Status) (d : BitVec 64) : (s.respond st d).params = s.params := rfl
@[simp] theorem State.respond_reg (s : State) (st : Status) (d : BitVec 64) (j : SourceId) : (s.respond st d).reg j = s.reg j := rfl
@[simp] theorem State.respond_fsm (s : State) (st : Status) (d : BitVec 64) (l : Level) : (s.respond st d).fsm l = s.fsm l := by cases l <;> rfl
@[simp] theorem State.emit_src (s : State) (e : Event) : (s.emit e).src = s.src := rfl
@[simp] theorem State.emit_portv (s : State) (e : Event) : (s.emit e).portv = s.portv := rfl
@[simp] theorem State.emit_prev (s : State) (e : Event) : (s.emit e).prev = s.prev := rfl
@[simp] theorem State.emit_chg (s : State) (e : Event) : (s.emit e).chg = s.chg := rfl
@[simp] theorem State.emit_fsmHigh (s : State) (e : Event) : (s.emit e).fsmHigh = s.fsmHigh := rfl
@[simp] theorem State.emit_fsmLow (s : State) (e : Event) : (s.emit e).fsmLow = s.fsmLow := rfl
@[simp] theorem State.emit_nocb (s : State) (e : Event) : (s.emit e).nocb = s.nocb := rfl
@[simp] theorem State.emit_refused (s : State) (e : Event) : (s.emit e).refused = s.refused := rfl
@[simp] theorem State.emit_responses (s : State) (e : Event) : (s.emit e).responses = s.responses := rfl
@[simp] theorem State.emit_inbox (s : State) (e : Event) : (s.emit e).inbox = s.inbox := rfl
@[simp] theorem State.emit_sched (s : State) (e : Event) : (s.emit e).sched = s.sched := rfl
@[simp] theorem State.emit_params (s : State) (e : Event) : (s.emit e).params = s.params := rfl
@[simp] theorem State.emit_reg (s : State) (e : Event) (j : SourceId) : (s.emit e).reg j = s.reg j := rfl
@[simp] theorem State.emit_fsm (s : State) (e : Event) (l : Level) : (s.emit e).fsm l = s.fsm l := by cases l <;> rfl
@[simp] theorem State.refuse_src (s : State)  : (s.refuse).src = s.src := rfl
@[simp] theorem State.refuse_portv (s : State)  : (s.refuse).portv = s.portv := rfl
@[simp] theorem State.refuse_prev (s : State)  : (s.refuse).prev = s.prev := rfl
@[simp] theorem State.refuse_chg (s : State)  : (s.refuse).chg = s.chg := rfl
@[simp] theorem State.refuse_fsmHigh (s : State)  : (s.refuse).fsmHigh = s.fsmHigh := rfl
@[simp] theorem State.refuse_fsmLow (s : State)  : (s.refuse).fsmLow = s.fsmLow := rfl
@[simp] theorem State.refuse_nocb (s : State)  : (s.refuse).nocb = s.nocb := rfl
@[simp] theorem State.refuse_events (s : State)  : (s.refuse).events = s.events := rfl
@[simp] theorem State.refuse_responses (s : State)  : (s.refuse).responses = s.responses := rfl
@[simp] theorem State.refuse_inbox (s : State)  : (s.refuse).inbox = s.inbox := rfl
@[simp] theorem State.refuse_sched (s : State)  : (s.refuse).sched = s.sched := rfl
@[simp] theorem State.refuse_params (s : State)  : (s.refuse).params = s.params := rfl
@[simp] theorem State.refuse_reg (s : State) (j : SourceId) : (s.refuse).reg j = s.reg j := rfl
@[simp] theorem State.refuse_fsm (s : State) (l : Level) : (s.refuse).fsm l = s.fsm l := by cases l <;> rfl
@[simp] theorem State.respond_responses (s : State) (st : Status) (d : BitVec 64) :
    (s.respond st d).responses = s.responses ++ [⟨st, d⟩] := rfl
@[simp] theorem State.emit_events (s : State) (e : Event) : (s.emit e).events = s.events ++ [e] := rfl
@[simp] theorem State.refuse_refused (s : State) : s.refuse.refused = true := rfl

/-! ## The FSMs -/

@[simp] theorem State.setFsm_src (s : State) (l : Level) (f : Fsm) : (s.setFsm l f).src = s.src := by cases l <;> rfl
@[simp] theorem State.setFsm_portv (s : State) (l : Level) (f : Fsm) : (s.setFsm l f).portv = s.portv := by cases l <;> rfl
@[simp] theorem State.setFsm_prev (s : State) (l : Level) (f : Fsm) : (s.setFsm l f).prev = s.prev := by cases l <;> rfl
@[simp] theorem State.setFsm_chg (s : State) (l : Level) (f : Fsm) : (s.setFsm l f).chg = s.chg := by cases l <;> rfl
@[simp] theorem State.setFsm_nocb (s : State) (l : Level) (f : Fsm) : (s.setFsm l f).nocb = s.nocb := by cases l <;> rfl
@[simp] theorem State.setFsm_refused (s : State) (l : Level) (f : Fsm) : (s.setFsm l f).refused = s.refused := by cases l <;> rfl
@[simp] theorem State.setFsm_events (s : State) (l : Level) (f : Fsm) : (s.setFsm l f).events = s.events := by cases l <;> rfl
@[simp] theorem State.setFsm_responses (s : State) (l : Level) (f : Fsm) : (s.setFsm l f).responses = s.responses := by cases l <;> rfl
@[simp] theorem State.setFsm_inbox (s : State) (l : Level) (f : Fsm) : (s.setFsm l f).inbox = s.inbox := by cases l <;> rfl
@[simp] theorem State.setFsm_sched (s : State) (l : Level) (f : Fsm) : (s.setFsm l f).sched = s.sched := by cases l <;> rfl
@[simp] theorem State.setFsm_params (s : State) (l : Level) (f : Fsm) : (s.setFsm l f).params = s.params := by cases l <;> rfl
@[simp] theorem State.setFsm_reg (s : State) (l : Level) (f : Fsm) (j : SourceId) : (s.setFsm l f).reg j = s.reg j := by
  cases l <;> rfl
@[simp] theorem State.setFsm_fsm_self (s : State) (l : Level) (f : Fsm) : (s.setFsm l f).fsm l = f := by cases l <;> rfl
theorem State.setFsm_fsm (s : State) (l m : Level) (f : Fsm) : (s.setFsm l f).fsm m = if l = m then f else s.fsm m := by
  cases l <;> cases m <;> rfl
@[simp] theorem State.setFsm_fsm_ne (s : State) {l m : Level} (f : Fsm) (h : m ≠ l) : (s.setFsm l f).fsm m = s.fsm m := by
  simp [State.setFsm_fsm, Ne.symm h]
theorem State.fsm_high (s : State) : s.fsm .high = s.fsmHigh := rfl
theorem State.fsm_low (s : State) : s.fsm .low = s.fsmLow := rfl
@[simp] theorem State.setReg_fsm (s : State) (id : SourceId) (r : SourceRegs) (l : Level) :
    (s.setReg id r).fsm l = s.fsm l := by cases l <;> rfl

/-! ## The bits of the interrupt scheme -/

theorem State.reg_setFlag (s : State) (id j : SourceId) (v : Bool) :
    (s.setFlag id v).reg j = if id = j then { s.reg id with flag := v } else s.reg j := State.reg_setReg ..
theorem State.reg_setEnable (s : State) (id j : SourceId) (v : Bool) :
    (s.setEnable id v).reg j = if id = j then { s.reg id with ie := v, used := v } else s.reg j := State.reg_setReg ..
theorem State.reg_setPriority (s : State) (id j : SourceId) (l : Level) :
    (s.setPriority id l).reg j = if id = j then { s.reg id with ip := l } else s.reg j := State.reg_setReg ..

@[simp] theorem State.setFlag_portv (s : State) (id : SourceId) (v : Bool) : (s.setFlag id v).portv = s.portv := rfl
@[simp] theorem State.setFlag_prev (s : State) (id : SourceId) (v : Bool) : (s.setFlag id v).prev = s.prev := rfl
@[simp] theorem State.setFlag_chg (s : State) (id : SourceId) (v : Bool) : (s.setFlag id v).chg = s.chg := rfl
@[simp] theorem State.setFlag_fsmHigh (s : State) (id : SourceId) (v : Bool) : (s.setFlag id v).fsmHigh = s.fsmHigh := rfl
@[simp] theorem State.setFlag_fsmLow (s : State) (id : SourceId) (v : Bool) : (s.setFlag id v).fsmLow = s.fsmLow := rfl
@[simp] theorem State.setFlag_nocb (s : State) (id : SourceId) (v : Bool) : (s.setFlag id v).nocb = s.nocb := rfl
@[simp] theorem State.setFlag_refused (s : State) (id : SourceId) (v : Bool) : (s.setFlag id v).refused = s.refused := rfl
@[simp] theorem State.setFlag_events (s : State) (id : SourceId) (v : Bool) : (s.setFlag id v).events = s.events := rfl
@[simp] theorem State.setFlag_responses (s : State) (id : SourceId) (v : Bool) : (s.setFlag id v).responses = s.responses := rfl
@[simp] theorem State.setFlag_inbox (s : State) (id : SourceId) (v : Bool) : (s.setFlag id v).inbox = s.inbox := rfl
@[simp] theorem State.setFlag_sched (s : State) (id : SourceId) (v : Bool) : (s.setFlag id v).sched = s.sched := rfl
@[simp] theorem State.setFlag_params (s : State) (id : SourceId) (v : Bool) : (s.setFlag id v).params = s.params := rfl
@[simp] theorem State.setFlag_fsm (s : State) (id : SourceId) (v : Bool) (m : Level) : (s.setFlag id v).fsm m = s.fsm m := by
  cases m <;> rfl
@[simp] theorem State.setEnable_portv (s : State) (id : SourceId) (v : Bool) : (s.setEnable id v).portv = s.portv := rfl
@[simp] theorem State.setEnable_prev (s : State) (id : SourceId) (v : Bool) : (s.setEnable id v).prev = s.prev := rfl
@[simp] theorem State.setEnable_chg (s : State) (id : SourceId) (v : Bool) : (s.setEnable id v).chg = s.chg := rfl
@[simp] theorem State.setEnable_fsmHigh (s : State) (id : SourceId) (v : Bool) : (s.setEnable id v).fsmHigh = s.fsmHigh := rfl
@[simp] theorem State.setEnable_fsmLow (s : State) (id : SourceId) (v : Bool) : (s.setEnable id v).fsmLow = s.fsmLow := rfl
@[simp] theorem State.setEnable_nocb (s : State) (id : SourceId) (v : Bool) : (s.setEnable id v).nocb = s.nocb := rfl
@[simp] theorem State.setEnable_refused (s : State) (id : SourceId) (v : Bool) : (s.setEnable id v).refused = s.refused := rfl
@[simp] theorem State.setEnable_events (s : State) (id : SourceId) (v : Bool) : (s.setEnable id v).events = s.events := rfl
@[simp] theorem State.setEnable_responses (s : State) (id : SourceId) (v : Bool) : (s.setEnable id v).responses = s.responses := rfl
@[simp] theorem State.setEnable_inbox (s : State) (id : SourceId) (v : Bool) : (s.setEnable id v).inbox = s.inbox := rfl
@[simp] theorem State.setEnable_sched (s : State) (id : SourceId) (v : Bool) : (s.setEnable id v).sched = s.sched := rfl
@[simp] theorem State.setEnable_params (s : State) (id : SourceId) (v : Bool) : (s.setEnable id v).params = s.params := rfl
@[simp] theorem State.setEnable_fsm (s : State) (id : SourceId) (v : Bool) (m : Level) : (s.setEnable id v).fsm m = s.fsm m := by
  cases m <;> rfl
@[simp] theorem State.setPriority_portv (s : State) (id : SourceId) (l : Level) : (s.setPriority id l).portv = s.portv := rfl
@[simp] theorem State.setPriority_prev (s : State) (id : SourceId) (l : Level) : (s.setPriority id l).prev = s.prev := rfl
@[simp] theorem State.setPriority_chg (s : State) (id : SourceId) (l : Level) : (s.setPriority id l).chg = s.chg := rfl
@[simp] theorem State.setPriority_fsmHigh (s : State) (id : SourceId) (l : Level) : (s.setPriority id l).fsmHigh = s.fsmHigh := rfl
@[simp] theorem State.setPriority_fsmLow (s : State) (id : SourceId) (l : Level) : (s.setPriority id l).fsmLow = s.fsmLow := rfl
@[simp] theorem State.setPriority_nocb (s : State) (id : SourceId) (l : Level) : (s.setPriority id l).nocb = s.nocb := rfl
@[simp] theorem State.setPriority_refused (s : State) (id : SourceId) (l : Level) : (s.setPriority id l).refused = s.refused := rfl
@[simp] theorem State.setPriority_events (s : State) (id : SourceId) (l : Level) : (s.setPriority id l).events = s.events := rfl
@[simp] theorem State.setPriority_responses (s : State) (id : SourceId) (l : Level) : (s.setPriority id l).responses = s.responses := rfl
@[simp] theorem State.setPriority_inbox (s : State) (id : SourceId) (l : Level) : (s.setPriority id l).inbox = s.inbox := rfl
@[simp] theorem State.setPriority_sched (s : State) (id : SourceId) (l : Level) : (s.setPriority id l).sched = s.sched := rfl
@[simp] theorem State.setPriority_params (s : State) (id : SourceId) (l : Level) : (s.setPriority id l).params = s.params := rfl
@[simp] theorem State.setPriority_fsm (s : State) (id : SourceId) (l : Level) (m : Level) : (s.setPriority id l).fsm m = s.fsm m := by
  cases m <;> rfl

/-! ## The scan position -/

@[simp] theorem State.resumeAfter_src (s : State) (l : Level) (id : SourceId) : (s.resumeAfter l id).src = s.src := by cases l <;> rfl
@[simp] theorem State.resumeAfter_portv (s : State) (l : Level) (id : SourceId) : (s.resumeAfter l id).portv = s.portv := by cases l <;> rfl
@[simp] theorem State.resumeAfter_prev (s : State) (l : Level) (id : SourceId) : (s.resumeAfter l id).prev = s.prev := by cases l <;> rfl
@[simp] theorem State.resumeAfter_chg (s : State) (l : Level) (id : SourceId) : (s.resumeAfter l id).chg = s.chg := by cases l <;> rfl
@[simp] theorem State.resumeAfter_nocb (s : State) (l : Level) (id : SourceId) : (s.resumeAfter l id).nocb = s.nocb := by cases l <;> rfl
@[simp] theorem State.resumeAfter_refused (s : State) (l : Level) (id : SourceId) : (s.resumeAfter l id).refused = s.refused := by cases l <;> rfl
@[simp] theorem State.resumeAfter_events (s : State) (l : Level) (id : SourceId) : (s.resumeAfter l id).events = s.events := by cases l <;> rfl
@[simp] theorem State.resumeAfter_responses (s : State) (l : Level) (id : SourceId) : (s.resumeAfter l id).responses = s.responses := by cases l <;> rfl
@[simp] theorem State.resumeAfter_inbox (s : State) (l : Level) (id : SourceId) : (s.resumeAfter l id).inbox = s.inbox := by cases l <;> rfl
@[simp] theorem State.resumeAfter_sched (s : State) (l : Level) (id : SourceId) : (s.resumeAfter l id).sched = s.sched := by cases l <;> rfl
@[simp] theorem State.resumeAfter_params (s : State) (l : Level) (id : SourceId) : (s.resumeAfter l id).params = s.params := by cases l <;> rfl
@[simp] theorem State.resumeAfter_reg (s : State) (l : Level) (id j : SourceId) : (s.resumeAfter l id).reg j = s.reg j := by
  cases l <;> rfl
theorem State.resumeAfter_fsm (s : State) (l m : Level) (id : SourceId) :
    (s.resumeAfter l id).fsm m = if l = m then .scan id.succ else s.fsm m := State.setFsm_fsm ..

@[simp] theorem State.enterDispatch_src (s : State) (l : Level) : (s.enterDispatch l).src = s.src := by cases l <;> rfl
@[simp] theorem State.enterDispatch_portv (s : State) (l : Level) : (s.enterDispatch l).portv = s.portv := by cases l <;> rfl
@[simp] theorem State.enterDispatch_prev (s : State) (l : Level) : (s.enterDispatch l).prev = s.prev := by cases l <;> rfl
@[simp] theorem State.enterDispatch_chg (s : State) (l : Level) : (s.enterDispatch l).chg = s.chg := by cases l <;> rfl
@[simp] theorem State.enterDispatch_nocb (s : State) (l : Level) : (s.enterDispatch l).nocb = s.nocb := by cases l <;> rfl
@[simp] theorem State.enterDispatch_refused (s : State) (l : Level) : (s.enterDispatch l).refused = s.refused := by cases l <;> rfl
@[simp] theorem State.enterDispatch_events (s : State) (l : Level) : (s.enterDispatch l).events = s.events := by cases l <;> rfl
@[simp] theorem State.enterDispatch_responses (s : State) (l : Level) : (s.enterDispatch l).responses = s.responses := by cases l <;> rfl
@[simp] theorem State.enterDispatch_inbox (s : State) (l : Level) : (s.enterDispatch l).inbox = s.inbox := by cases l <;> rfl
@[simp] theorem State.enterDispatch_sched (s : State) (l : Level) : (s.enterDispatch l).sched = s.sched := by cases l <;> rfl
@[simp] theorem State.enterDispatch_params (s : State) (l : Level) : (s.enterDispatch l).params = s.params := by cases l <;> rfl
@[simp] theorem State.enterDispatch_reg (s : State) (l : Level) (j : SourceId) : (s.enterDispatch l).reg j = s.reg j := by
  cases l <;> rfl
theorem State.enterDispatch_fsm (s : State) (l m : Level) :
    (s.enterDispatch l).fsm m = if l = m then .scan 0 else s.fsm m := State.setFsm_fsm ..

@[simp] theorem State.endDispatch_src (s : State) (l : Level) : (s.endDispatch l).src = s.src := by cases l <;> rfl
@[simp] theorem State.endDispatch_portv (s : State) (l : Level) : (s.endDispatch l).portv = s.portv := by cases l <;> rfl
@[simp] theorem State.endDispatch_prev (s : State) (l : Level) : (s.endDispatch l).prev = s.prev := by cases l <;> rfl
@[simp] theorem State.endDispatch_chg (s : State) (l : Level) : (s.endDispatch l).chg = s.chg := by cases l <;> rfl
@[simp] theorem State.endDispatch_nocb (s : State) (l : Level) : (s.endDispatch l).nocb = s.nocb := by cases l <;> rfl
@[simp] theorem State.endDispatch_refused (s : State) (l : Level) : (s.endDispatch l).refused = s.refused := by cases l <;> rfl
@[simp] theorem State.endDispatch_responses (s : State) (l : Level) : (s.endDispatch l).responses = s.responses := by cases l <;> rfl
@[simp] theorem State.endDispatch_inbox (s : State) (l : Level) : (s.endDispatch l).inbox = s.inbox := by cases l <;> rfl
@[simp] theorem State.endDispatch_sched (s : State) (l : Level) : (s.endDispatch l).sched = s.sched := by cases l <;> rfl
@[simp] theorem State.endDispatch_params (s : State) (l : Level) : (s.endDispatch l).params = s.params := by cases l <;> rfl
@[simp] theorem State.endDispatch_reg (s : State) (l : Level) (j : SourceId) : (s.endDispatch l).reg j = s.reg j := by
  cases l <;> rfl
@[simp] theorem State.endDispatch_events (s : State) (l : Level) : (s.endDispatch l).events = s.events ++ [.done l] := by
  cases l <;> rfl
theorem State.endDispatch_fsm (s : State) (l m : Level) :
    (s.endDispatch l).fsm m = if l = m then .idle else s.fsm m := by cases l <;> cases m <;> rfl

end Sys2Proof.Machine
end

