-- ==== Sys2Proof/Laws/Ops.lean ====
section
/-! SUPPORT. One lemma for each shared operation, saying everything it can do; a later proof cites these and unfolds nothing. -/

namespace Sys2Proof

/-! ## The counter's width -/

theorem TimerWidth.maxw_lt (w : TimerWidth) : w.maxw < 2 ^ 16 := by cases w <;> decide
theorem TimerWidth.maxw_pos (w : TimerWidth) : 0 < w.maxw := by cases w <;> decide
@[simp] theorem TimerWidth.top_toNat (w : TimerWidth) : w.top.toNat = w.maxw := by cases w <;> decide

/-- Truncation keeps the low bits. -/
theorem TimerWidth.trunc_toNat (w : TimerWidth) (v : BitVec 16) : (w.trunc v).toNat = v.toNat % (w.maxw + 1) := by
  simp only [TimerWidth.trunc, BitVec.toNat_and, TimerWidth.top_toNat]
  cases w
  · exact Nat.and_two_pow_sub_one_eq_mod v.toNat 8
  · exact Nat.and_two_pow_sub_one_eq_mod v.toNat 16

/-- A value within the width is not truncated. -/
theorem TimerWidth.trunc_of_le {w : TimerWidth} {v : BitVec 16} (h : v.toNat ≤ w.maxw) : w.trunc v = v := by
  apply BitVec.eq_of_toNat_eq
  rw [TimerWidth.trunc_toNat, Nat.mod_eq_of_lt (by omega)]

/-- A truncated value is within the width. -/
theorem TimerWidth.trunc_le (w : TimerWidth) (v : BitVec 16) : (w.trunc v).toNat ≤ w.maxw := by
  rw [TimerWidth.trunc_toNat]
  have := Nat.mod_lt v.toNat (show 0 < w.maxw + 1 by omega)
  omega

end Sys2Proof

namespace Sys2Proof.Machine

/-! ## The record -/

/-- A slot that has timer parameters is that TIMER slot. -/
theorem timer?_eq_some {p : Params} {id : SourceId} {t : TimerParams} : p.timer? id = some t ↔ p.slot id = .timer t := by
  unfold Params.timer?
  cases p.slot id <;> simp

/-- A slot without timer parameters is absent, an event source or the port-change source. -/
theorem timer?_eq_none {p : Params} {id : SourceId} :
    p.timer? id = none ↔ p.slot id = .absent ∨ p.slot id = .event ∨ p.slot id = .portChange := by
  unfold Params.timer?
  cases p.slot id <;> simp

/-- An identity is present unless its slot is absent. -/
theorem present_iff {p : Params} {id : SourceId} : p.present id = true ↔ p.slot id ≠ .absent := by
  unfold Params.present
  cases p.slot id <;> simp

/-- A TIMER source is present. -/
theorem present_of_timer? {p : Params} {id : SourceId} {t : TimerParams} (h : p.timer? id = some t) :
    p.present id = true := present_iff.2 (by simp [timer?_eq_some.1 h])

/-- The port-change source has that slot. -/
theorem slot_of_portChange? {p : Params} {id : SourceId} (h : p.portChange? = some id) : p.slot id = .portChange := by
  have := List.find?_some h
  simpa using this

/-! ## The FSMs, the contexts and the hold -/

theorem Fsm.scanning_iff {f : Fsm} : f.scanning = true ↔ ∃ i, f = .scan i := by cases f <;> simp [Fsm.scanning]

/-- When the scanner's step is enabled (`44_dispatch.md` R194). -/
theorem svcEnabled_iff {s : State} {l : Level} :
    s.svcEnabled l = true ↔ (∃ i, s.fsm l = .scan i) ∧ (l = .low → s.fsmHigh = .idle) := by
  cases l <;> simp [State.svcEnabled, State.fsm, Fsm.scanning_iff]

/-- The innermost level in a dispatch (`44_dispatch.md` R190). -/
theorem inner_eq_some {s : State} {l : Level} :
    s.inner = some l ↔ s.fsm l ≠ .idle ∧ (l = .low → s.fsmHigh = .idle) := by
  unfold State.inner
  cases l <;> by_cases h₁ : s.fsmHigh = .idle <;> by_cases h₂ : s.fsmLow = .idle <;> simp [State.fsm, h₁, h₂]

/-- The running callback of a level (`44_dispatch.md` R193). -/
theorem runningCallback_eq_some {s : State} {l : Level} {i : SourceId} :
    s.runningCallback l = some i ↔ s.fsm l = .wait i ∧ (l = .low → s.fsmHigh = .idle) := by
  unfold State.runningCallback
  by_cases h : s.inner = some l
  · rw [if_pos h]
    have h' := (inner_eq_some.1 h).2
    cases s.fsm l <;> simp_all
  · rw [if_neg h]
    simp only [reduceCtorEq, false_iff, not_and]
    intro h₁ h₂
    exact h (inner_eq_some.2 ⟨by simp [h₁], h₂⟩)

/-- A DISP that is accepted (`44_dispatch.md` R191). -/
theorem acceptsDispatch_iff {s : State} {l : Level} :
    s.acceptsDispatch l = true ↔ s.fsm l = .idle ∧ (l = .low → s.fsmHigh = .idle) := by
  cases l <;> simp [State.acceptsDispatch, State.fsm]

/-! ## The flag scheme -/

/-- The scanner's test (`44_dispatch.md` R196). -/
theorem serviceable_iff {s : State} {l : Level} {id : SourceId} :
    s.serviceable l id = true ↔
      s.params.present id = true ∧ (s.reg id).ip = l ∧ (s.reg id).ie = true ∧ (s.reg id).flag = true := by
  simp [State.serviceable, SourceRegs.requesting, and_assoc]

/-- The count exceeds the limit. -/
theorem SourceRegs.tickFires_iff {r : SourceRegs} : r.tickFires = true ↔ r.lim.toNat < r.cnt.toNat + 1 := by
  simp [SourceRegs.tickFires]

/-- The channel counts this kind of edge. -/
theorem SourceRegs.counts_iff {r : SourceRegs} {cs : ClockSource} : r.counts cs = true ↔ r.ton = true ∧ r.cs = cs := by
  simp [SourceRegs.counts]

/-- A count never leaves a service above the limit. -/
theorem SourceRegs.tick_cnt_le {w : TimerWidth} {r : SourceRegs} : (r.tick w).cnt.toNat ≤ r.lim.toNat := by
  have h₁ := r.cnt.isLt
  have h₂ := r.lim.isLt
  by_cases h : r.lim.toNat < r.cnt.toNat + 1
  · simp [SourceRegs.tick, h]
  · simp only [SourceRegs.tick, if_neg h, BitVec.toNat_add]
    have : (1 : BitVec 48).toNat = 1 := rfl
    omega

/-! ## The words: what each guard answers -/

/-- A word over a present source. -/
theorem onPresent_cases (s : State) (id : SourceId) (t : State) :
    (s.params.present id = true ∧ onPresent s id t = .next t)
      ∨ (s.params.present id = false ∧ onPresent s id t = .next (s.respond .illegal 0)) := by
  unfold onPresent illegalWord
  cases h : s.params.present id <;> simp

/-- A word over a TIMER source. -/
theorem onTimer_cases (s : State) (id : SourceId) (f : TimerParams → State) :
    (∃ t, s.params.timer? id = some t ∧ onTimer s id f = .next (f t))
      ∨ (s.params.timer? id = none ∧ onTimer s id f = .next (s.respond .illegal 0)) := by
  unfold onTimer illegalWord
  cases h : s.params.timer? id <;> simp

/-- A word over a TIMER source that counts external edges. -/
theorem onExtTimer_cases (s : State) (id : SourceId) (f : TimerParams → State) :
    (∃ t, s.params.timer? id = some t ∧ t.extok = true ∧ onExtTimer s id f = .next (f t))
      ∨ ((∀ t, s.params.timer? id = some t → t.extok = false) ∧ onExtTimer s id f = .next (s.respond .illegal 0)) := by
  unfold onExtTimer illegalWord
  cases h : s.params.timer? id with
  | none => simp
  | some t => cases h' : t.extok <;> simp [h']

/-- A word over an event or port-change source. -/
theorem onEvent_cases (s : State) (id : SourceId) (t : State) :
    ((s.params.slot id = .event ∨ s.params.slot id = .portChange) ∧ onEvent s id t = .next t)
      ∨ ((s.params.slot id = .absent ∨ ∃ u, s.params.slot id = .timer u)
          ∧ onEvent s id t = .next (s.respond .illegal 0)) := by
  unfold onEvent illegalWord
  cases h : s.params.slot id <;> simp

/-- A registration: the two failures in their order, or the success effect (`42_registration.md` R151). -/
theorem register_cases (s : State) (id : SourceId) (cb : Handle) (success : Option State) :
    ((s.reg id).used = true ∧ s.register id cb success = s.respond .alreadyUsed 0)
      ∨ ((s.reg id).used = false ∧ (cb = 0 ∨ success = none) ∧ s.register id cb success = s.respond .badArg 0)
      ∨ ((s.reg id).used = false ∧ cb ≠ 0 ∧ ∃ t, success = some t ∧ s.register id cb success = t.respond .ok 0) := by
  unfold State.register
  cases h : (s.reg id).used
  · by_cases h' : cb = 0
    · exact .inr (.inl ⟨rfl, .inl h', by simp only [Bool.false_eq_true, if_false, if_pos h']⟩)
    · cases success with
      | none => exact .inr (.inl ⟨rfl, .inr rfl, by simp only [Bool.false_eq_true, if_false, if_neg h']⟩)
      | some t => exact .inr (.inr ⟨rfl, h', t, rfl, by simp only [Bool.false_eq_true, if_false, if_neg h']⟩)
  · exact .inl ⟨rfl, by simp⟩

/-- A QUERY whose selector applies reads the field; one whose selector does not apply reads nothing. -/
theorem readField_source (s : State) (id : SourceId) (f : SourceField) :
    s.readField id (.source f) =
      if s.params.present id = true ∧ (f.timerOnly = true → (s.params.timer? id).isSome = true) then
        some ((s.reg id).read f) else none := by
  simp only [State.readField]
  congr 1
  simp only [Bool.and_eq_true, Bool.or_eq_true, Bool.not_eq_true', eq_iff_iff]
  cases f.timerOnly <;> simp

theorem readField_global (s : State) (id : SourceId) (g : GlobalField) :
    s.readField id (.global g) = if id = 0 then some (s.readGlobal g) else none := rfl

/-! ## The channel -/

@[simp] theorem SourceRegs.edge_ton (w : TimerWidth) (r : SourceRegs) : (r.edge w).ton = r.ton := by
  unfold SourceRegs.edge; split_ifs <;> rfl
@[simp] theorem SourceRegs.edge_cs (w : TimerWidth) (r : SourceRegs) : (r.edge w).cs = r.cs := by
  unfold SourceRegs.edge; split_ifs <;> rfl
@[simp] theorem SourceRegs.edge_ps (w : TimerWidth) (r : SourceRegs) : (r.edge w).ps = r.ps := by
  unfold SourceRegs.edge; split_ifs <;> rfl
@[simp] theorem SourceRegs.edge_qs (w : TimerWidth) (r : SourceRegs) : (r.edge w).qs = r.qs := by
  unfold SourceRegs.edge; split_ifs <;> rfl
@[simp] theorem SourceRegs.edge_rld (w : TimerWidth) (r : SourceRegs) : (r.edge w).rld = r.rld := by
  unfold SourceRegs.edge; split_ifs <;> rfl
@[simp] theorem SourceRegs.edge_lim (w : TimerWidth) (r : SourceRegs) : (r.edge w).lim = r.lim := by
  unfold SourceRegs.edge; split_ifs <;> rfl
@[simp] theorem SourceRegs.edge_cnt (w : TimerWidth) (r : SourceRegs) : (r.edge w).cnt = r.cnt := by
  unfold SourceRegs.edge; split_ifs <;> rfl
@[simp] theorem SourceRegs.edge_cb (w : TimerWidth) (r : SourceRegs) : (r.edge w).cb = r.cb := by
  unfold SourceRegs.edge; split_ifs <;> rfl
@[simp] theorem SourceRegs.edge_ip (w : TimerWidth) (r : SourceRegs) : (r.edge w).ip = r.ip := by
  unfold SourceRegs.edge; split_ifs <;> rfl
@[simp] theorem SourceRegs.edge_ie (w : TimerWidth) (r : SourceRegs) : (r.edge w).ie = r.ie := by
  unfold SourceRegs.edge; split_ifs <;> rfl
@[simp] theorem SourceRegs.edge_used (w : TimerWidth) (r : SourceRegs) : (r.edge w).used = r.used := by
  unfold SourceRegs.edge; split_ifs <;> rfl

/-- An edge never clears the flag. -/
theorem SourceRegs.edge_flag (w : TimerWidth) (r : SourceRegs) : r.flag = true → (r.edge w).flag = true := by
  unfold SourceRegs.edge; split_ifs <;> simp

/-- `edges` as an iterate. -/
theorem SourceRegs.edges_eq_iterate (w : TimerWidth) (n : Nat) (r : SourceRegs) :
    r.edges w n = (SourceRegs.edge w)^[n] r := by
  induction n generalizing r with
  | zero => rfl
  | succ n ih => simp [SourceRegs.edges, ih]

/-! `n` edges leave every other field alone. -/

@[simp] theorem SourceRegs.edges_ton (w : TimerWidth) (n : Nat) (r : SourceRegs) : (r.edges w n).ton = r.ton := by
  induction n generalizing r with
  | zero => rfl
  | succ n ih => simp [SourceRegs.edges, ih]
@[simp] theorem SourceRegs.advance_ton (w : TimerWidth) (n : Nat) (r : SourceRegs) : (r.advance w n).ton = r.ton := by
  unfold SourceRegs.advance; split_ifs
  · rfl
  · exact SourceRegs.edges_ton w n r
@[simp] theorem State.channelAfter_ton (s : State) (cs : ClockSource) (n : Nat) (id : SourceId) :
    (s.channelAfter cs n id).ton = (s.reg id).ton := by
  unfold State.channelAfter; split
  · split_ifs
    · exact SourceRegs.advance_ton ..
    · rfl
  · rfl
@[simp] theorem SourceRegs.edges_cs (w : TimerWidth) (n : Nat) (r : SourceRegs) : (r.edges w n).cs = r.cs := by
  induction n generalizing r with
  | zero => rfl
  | succ n ih => simp [SourceRegs.edges, ih]
@[simp] theorem SourceRegs.advance_cs (w : TimerWidth) (n : Nat) (r : SourceRegs) : (r.advance w n).cs = r.cs := by
  unfold SourceRegs.advance; split_ifs
  · rfl
  · exact SourceRegs.edges_cs w n r
@[simp] theorem State.channelAfter_cs (s : State) (cs : ClockSource) (n : Nat) (id : SourceId) :
    (s.channelAfter cs n id).cs = (s.reg id).cs := by
  unfold State.channelAfter; split
  · split_ifs
    · exact SourceRegs.advance_cs ..
    · rfl
  · rfl
@[simp] theorem SourceRegs.edges_ps (w : TimerWidth) (n : Nat) (r : SourceRegs) : (r.edges w n).ps = r.ps := by
  induction n generalizing r with
  | zero => rfl
  | succ n ih => simp [SourceRegs.edges, ih]
@[simp] theorem SourceRegs.advance_ps (w : TimerWidth) (n : Nat) (r : SourceRegs) : (r.advance w n).ps = r.ps := by
  unfold SourceRegs.advance; split_ifs
  · rfl
  · exact SourceRegs.edges_ps w n r
@[simp] theorem State.channelAfter_ps (s : State) (cs : ClockSource) (n : Nat) (id : SourceId) :
    (s.channelAfter cs n id).ps = (s.reg id).ps := by
  unfold State.channelAfter; split
  · split_ifs
    · exact SourceRegs.advance_ps ..
    · rfl
  · rfl
@[simp] theorem SourceRegs.edges_qs (w : TimerWidth) (n : Nat) (r : SourceRegs) : (r.edges w n).qs = r.qs := by
  induction n generalizing r with
  | zero => rfl
  | succ n ih => simp [SourceRegs.edges, ih]
@[simp] theorem SourceRegs.advance_qs (w : TimerWidth) (n : Nat) (r : SourceRegs) : (r.advance w n).qs = r.qs := by
  unfold SourceRegs.advance; split_ifs
  · rfl
  · exact SourceRegs.edges_qs w n r
@[simp] theorem State.channelAfter_qs (s : State) (cs : ClockSource) (n : Nat) (id : SourceId) :
    (s.channelAfter cs n id).qs = (s.reg id).qs := by
  unfold State.channelAfter; split
  · split_ifs
    · exact SourceRegs.advance_qs ..
    · rfl
  · rfl
@[simp] theorem SourceRegs.edges_rld (w : TimerWidth) (n : Nat) (r : SourceRegs) : (r.edges w n).rld = r.rld := by
  induction n generalizing r with
  | zero => rfl
  | succ n ih => simp [SourceRegs.edges, ih]
@[simp] theorem SourceRegs.advance_rld (w : TimerWidth) (n : Nat) (r : SourceRegs) : (r.advance w n).rld = r.rld := by
  unfold SourceRegs.advance; split_ifs
  · rfl
  · exact SourceRegs.edges_rld w n r
@[simp] theorem State.channelAfter_rld (s : State) (cs : ClockSource) (n : Nat) (id : SourceId) :
    (s.channelAfter cs n id).rld = (s.reg id).rld := by
  unfold State.channelAfter; split
  · split_ifs
    · exact SourceRegs.advance_rld ..
    · rfl
  · rfl
@[simp] theorem SourceRegs.edges_lim (w : TimerWidth) (n : Nat) (r : SourceRegs) : (r.edges w n).lim = r.lim := by
  induction n generalizing r with
  | zero => rfl
  | succ n ih => simp [SourceRegs.edges, ih]
@[simp] theorem SourceRegs.advance_lim (w : TimerWidth) (n : Nat) (r : SourceRegs) : (r.advance w n).lim = r.lim := by
  unfold SourceRegs.advance; split_ifs
  · rfl
  · exact SourceRegs.edges_lim w n r
@[simp] theorem State.channelAfter_lim (s : State) (cs : ClockSource) (n : Nat) (id : SourceId) :
    (s.channelAfter cs n id).lim = (s.reg id).lim := by
  unfold State.channelAfter; split
  · split_ifs
    · exact SourceRegs.advance_lim ..
    · rfl
  · rfl
@[simp] theorem SourceRegs.edges_cnt (w : TimerWidth) (n : Nat) (r : SourceRegs) : (r.edges w n).cnt = r.cnt := by
  induction n generalizing r with
  | zero => rfl
  | succ n ih => simp [SourceRegs.edges, ih]
@[simp] theorem SourceRegs.advance_cnt (w : TimerWidth) (n : Nat) (r : SourceRegs) : (r.advance w n).cnt = r.cnt := by
  unfold SourceRegs.advance; split_ifs
  · rfl
  · exact SourceRegs.edges_cnt w n r
@[simp] theorem State.channelAfter_cnt (s : State) (cs : ClockSource) (n : Nat) (id : SourceId) :
    (s.channelAfter cs n id).cnt = (s.reg id).cnt := by
  unfold State.channelAfter; split
  · split_ifs
    · exact SourceRegs.advance_cnt ..
    · rfl
  · rfl
@[simp] theorem SourceRegs.edges_cb (w : TimerWidth) (n : Nat) (r : SourceRegs) : (r.edges w n).cb = r.cb := by
  induction n generalizing r with
  | zero => rfl
  | succ n ih => simp [SourceRegs.edges, ih]
@[simp] theorem SourceRegs.advance_cb (w : TimerWidth) (n : Nat) (r : SourceRegs) : (r.advance w n).cb = r.cb := by
  unfold SourceRegs.advance; split_ifs
  · rfl
  · exact SourceRegs.edges_cb w n r
@[simp] theorem State.channelAfter_cb (s : State) (cs : ClockSource) (n : Nat) (id : SourceId) :
    (s.channelAfter cs n id).cb = (s.reg id).cb := by
  unfold State.channelAfter; split
  · split_ifs
    · exact SourceRegs.advance_cb ..
    · rfl
  · rfl
@[simp] theorem SourceRegs.edges_ip (w : TimerWidth) (n : Nat) (r : SourceRegs) : (r.edges w n).ip = r.ip := by
  induction n generalizing r with
  | zero => rfl
  | succ n ih => simp [SourceRegs.edges, ih]
@[simp] theorem SourceRegs.advance_ip (w : TimerWidth) (n : Nat) (r : SourceRegs) : (r.advance w n).ip = r.ip := by
  unfold SourceRegs.advance; split_ifs
  · rfl
  · exact SourceRegs.edges_ip w n r
@[simp] theorem State.channelAfter_ip (s : State) (cs : ClockSource) (n : Nat) (id : SourceId) :
    (s.channelAfter cs n id).ip = (s.reg id).ip := by
  unfold State.channelAfter; split
  · split_ifs
    · exact SourceRegs.advance_ip ..
    · rfl
  · rfl
@[simp] theorem SourceRegs.edges_ie (w : TimerWidth) (n : Nat) (r : SourceRegs) : (r.edges w n).ie = r.ie := by
  induction n generalizing r with
  | zero => rfl
  | succ n ih => simp [SourceRegs.edges, ih]
@[simp] theorem SourceRegs.advance_ie (w : TimerWidth) (n : Nat) (r : SourceRegs) : (r.advance w n).ie = r.ie := by
  unfold SourceRegs.advance; split_ifs
  · rfl
  · exact SourceRegs.edges_ie w n r
@[simp] theorem State.channelAfter_ie (s : State) (cs : ClockSource) (n : Nat) (id : SourceId) :
    (s.channelAfter cs n id).ie = (s.reg id).ie := by
  unfold State.channelAfter; split
  · split_ifs
    · exact SourceRegs.advance_ie ..
    · rfl
  · rfl
@[simp] theorem SourceRegs.edges_used (w : TimerWidth) (n : Nat) (r : SourceRegs) : (r.edges w n).used = r.used := by
  induction n generalizing r with
  | zero => rfl
  | succ n ih => simp [SourceRegs.edges, ih]
@[simp] theorem SourceRegs.advance_used (w : TimerWidth) (n : Nat) (r : SourceRegs) : (r.advance w n).used = r.used := by
  unfold SourceRegs.advance; split_ifs
  · rfl
  · exact SourceRegs.edges_used w n r
@[simp] theorem State.channelAfter_used (s : State) (cs : ClockSource) (n : Nat) (id : SourceId) :
    (s.channelAfter cs n id).used = (s.reg id).used := by
  unfold State.channelAfter; split
  · split_ifs
    · exact SourceRegs.advance_used ..
    · rfl
  · rfl

/-- The fields of every identity after `n` cycles. -/
@[simp] theorem State.clockCycles_reg (s : State) (n : Nat) (id : SourceId) :
    (s.clockCycles n).reg id = s.channelAfter .int n id := by
  simp [State.clockCycles, State.reg]

@[simp] theorem State.clockCycles_params (s : State) (n : Nat) : (s.clockCycles n).params = s.params := by
  unfold State.clockCycles; rfl
@[simp] theorem State.clockCycles_events (s : State) (n : Nat) : (s.clockCycles n).events = s.events := by
  unfold State.clockCycles; rfl
@[simp] theorem State.clockCycles_responses (s : State) (n : Nat) : (s.clockCycles n).responses = s.responses := by
  unfold State.clockCycles; rfl
@[simp] theorem State.clockCycles_fsmHigh (s : State) (n : Nat) : (s.clockCycles n).fsmHigh = s.fsmHigh := by
  unfold State.clockCycles; rfl
@[simp] theorem State.clockCycles_fsmLow (s : State) (n : Nat) : (s.clockCycles n).fsmLow = s.fsmLow := by
  unfold State.clockCycles; rfl
@[simp] theorem State.clockCycles_nocb (s : State) (n : Nat) : (s.clockCycles n).nocb = s.nocb := by
  unfold State.clockCycles; rfl
@[simp] theorem State.clockCycles_refused (s : State) (n : Nat) : (s.clockCycles n).refused = s.refused := by
  unfold State.clockCycles; rfl
@[simp] theorem State.clockCycles_inbox (s : State) (n : Nat) : (s.clockCycles n).inbox = s.inbox := by
  unfold State.clockCycles; rfl
@[simp] theorem State.clockCycles_sched (s : State) (n : Nat) : (s.clockCycles n).sched = s.sched := by
  unfold State.clockCycles; rfl
@[simp] theorem State.clockCycles_portv (s : State) (n : Nat) : (s.clockCycles n).portv = s.portv := by
  unfold State.clockCycles; rfl
@[simp] theorem State.clockCycles_prev (s : State) (n : Nat) : (s.clockCycles n).prev = s.prev := by
  unfold State.clockCycles; rfl
@[simp] theorem State.clockCycles_chg (s : State) (n : Nat) : (s.clockCycles n).chg = s.chg := by
  unfold State.clockCycles; rfl

/-- One external edge, identity by identity. -/
theorem State.externalEdge_reg (s : State) (id j : SourceId) :
    (s.externalEdge id).reg j = if id = j then s.channelAfter .ext 1 id else s.reg j := State.reg_setReg ..

/-! ## The scanner -/

/-- `fire`: a FIRE and a wait, or NOCB and the scan goes on (`44_dispatch.md` R201). -/
theorem State.fire_cases (s : State) (l : Level) (id : SourceId) :
    ((s.reg id).cb ≠ 0 ∧ s.fire l id = (s.emit (.fire l id (s.reg id).cb)).setFsm l (.wait id))
      ∨ ((s.reg id).cb = 0 ∧ s.fire l id = ({ s with nocb := true }).setFsm l (.scan id.succ)) := by
  unfold State.fire State.resumeAfter
  by_cases h : (s.reg id).cb = 0
  · exact .inr ⟨h, if_pos h⟩
  · exact .inl ⟨h, if_neg h⟩

@[simp] theorem State.fire_reg (s : State) (l : Level) (id j : SourceId) : (s.fire l id).reg j = s.reg j := by
  rcases s.fire_cases l id with ⟨-, h⟩ | ⟨-, h⟩ <;> (simp [h]; try rfl)
@[simp] theorem State.fire_params (s : State) (l : Level) (id : SourceId) : (s.fire l id).params = s.params := by
  rcases s.fire_cases l id with ⟨-, h⟩ | ⟨-, h⟩ <;> simp [h]
@[simp] theorem State.fire_portv (s : State) (l : Level) (id : SourceId) : (s.fire l id).portv = s.portv := by
  rcases s.fire_cases l id with ⟨-, h⟩ | ⟨-, h⟩ <;> simp [h]
@[simp] theorem State.fire_prev (s : State) (l : Level) (id : SourceId) : (s.fire l id).prev = s.prev := by
  rcases s.fire_cases l id with ⟨-, h⟩ | ⟨-, h⟩ <;> simp [h]
@[simp] theorem State.fire_chg (s : State) (l : Level) (id : SourceId) : (s.fire l id).chg = s.chg := by
  rcases s.fire_cases l id with ⟨-, h⟩ | ⟨-, h⟩ <;> simp [h]
@[simp] theorem State.fire_refused (s : State) (l : Level) (id : SourceId) : (s.fire l id).refused = s.refused := by
  rcases s.fire_cases l id with ⟨-, h⟩ | ⟨-, h⟩ <;> simp [h]
@[simp] theorem State.fire_responses (s : State) (l : Level) (id : SourceId) :
    (s.fire l id).responses = s.responses := by
  rcases s.fire_cases l id with ⟨-, h⟩ | ⟨-, h⟩ <;> simp [h]
@[simp] theorem State.fire_inbox (s : State) (l : Level) (id : SourceId) : (s.fire l id).inbox = s.inbox := by
  rcases s.fire_cases l id with ⟨-, h⟩ | ⟨-, h⟩ <;> simp [h]
@[simp] theorem State.fire_sched (s : State) (l : Level) (id : SourceId) : (s.fire l id).sched = s.sched := by
  rcases s.fire_cases l id with ⟨-, h⟩ | ⟨-, h⟩ <;> simp [h]

/-- Where the scanner stands and what it does there: nothing, the end of the scan, or one identity examined
(`44_dispatch.md` R194 to R196). -/
theorem State.svc_cases (s : State) (l : Level) :
    ((∀ i, s.fsm l ≠ .scan i) ∧ s.svc l = s)
      ∨ (s.fsm l = .scan 32 ∧ s.svc l = s.endDispatch l)
      ∨ ∃ id : SourceId, s.fsm l = .scan id.castSucc ∧ s.svc l = s.examine l id := by
  unfold State.svc
  cases h : s.fsm l with
  | idle => simp
  | wait i => simp
  | scan i =>
    by_cases h' : i.val < 32
    · exact .inr (.inr ⟨⟨i.val, h'⟩, rfl, by simp [h']⟩)
    · exact .inr (.inl ⟨by congr 1; exact Fin.ext (by simp; omega), by simp [h']⟩)

/-- An identity passed with nothing done (`44_dispatch.md` R196). -/
theorem State.examine_of_not_serviceable {s : State} {l : Level} {id : SourceId} (h : s.serviceable l id = false) :
    s.examine l id = s.resumeAfter l id := by
  simp [State.examine, h]

theorem State.examine_of_serviceable {s : State} {l : Level} {id : SourceId} (h : s.serviceable l id = true) :
    s.examine l id = s.service l id := by
  simp [State.examine, h]

/-- The service of each kind of source (`44_dispatch.md` R197 to R200). -/
theorem State.service_timer {s : State} {l : Level} {id : SourceId} {t : TimerParams} (h : s.params.slot id = .timer t) :
    s.service l id =
      if (s.reg id).tickFires = true then
        (s.setReg id { (s.reg id).tick t.width with flag := false }).fire l id
      else (s.setReg id { (s.reg id).tick t.width with flag := false }).resumeAfter l id := by
  have e : (s.setFlag id false).setReg id (((s.setFlag id false).reg id).tick t.width)
      = s.setReg id { (s.reg id).tick t.width with flag := false } := by
    simp only [State.setFlag, State.reg_setReg_self]
    simp [State.setReg, SourceRegs.tick]
  simp only [State.service, h, e]

theorem State.service_event {s : State} {l : Level} {id : SourceId} (h : s.params.slot id = .event) :
    s.service l id = (s.setFlag id false).fire l id := by
  simp only [State.service, h]

theorem State.service_portChange {s : State} {l : Level} {id : SourceId} (h : s.params.slot id = .portChange) :
    s.service l id = ({ s.setFlag id false with chg := s.portv ^^^ s.prev, prev := s.portv }).fire l id := by
  simp only [State.service, h]

/-! ## The ports -/

/-- What a move of the agents behind a port does. -/
theorem wordMove_cases (p : Port) (s : State) :
    (headOf p s.inbox = none ∧ wordMove p s = .next s)
      ∨ ∃ w, headOf p s.inbox = some w
          ∧ ((portHeld p s = true ∧ wordMove p s = .next s)
            ∨ (portHeld p s = false ∧ wordMove p s = consume p w { s with inbox := dropHead p s.inbox })) := by
  unfold wordMove
  cases headOf p s.inbox with
  | none => simp
  | some w => cases h : portHeld p s <;> simp

/-- What the consumption of a word does. -/
theorem consume_cases (p : Port) (w : Word) (s : State) :
    (∃ i, decodeOn p w = .ok i ∧ consume p w s = exec i s)
      ∨ ∃ e, decodeOn p w = .error e
          ∧ ((p ≠ .stimulus ∧ consume p w s = .next (s.respond .illegal 0))
            ∨ (p = .stimulus ∧ consume p w s = .next s.refuse)) := by
  unfold consume
  cases h : decodeOn p w with
  | ok i => simp
  | error e => cases p <;> simp [invalidWord, illegalWord, refusedWord]

end Sys2Proof.Machine
end

