-- ==== Sys2Proof/Laws/Exec.lean ====
section
/-! SUPPORT. What the consumption of a word can do, said once: the inversion a proof about every word goes through. -/

namespace Sys2Proof.Machine

/-- The possible effects of consuming a word in `s`, each with the guards under which it happens. -/
inductive Effect (s : State) : Instr → State → Prop
  | nop : Effect s .nop (s.respond .ok 0)
  /-- A command or vector word that is not legal for the record. -/
  | illegal {i : Instr} (port : i.carrier ≠ .stimulus) (legal : i.legal s.params = false) :
      Effect s i (s.respond .illegal 0)
  /-- A stimulus word that is not legal for the record. -/
  | refuse {i : Instr} (port : i.carrier = .stimulus) (legal : i.legal s.params = false) : Effect s i s.refuse
  | dispRejected {l : Level} (accepts : s.acceptsDispatch l = false) : Effect s (.disp l) (s.respond .protocol 0)
  | cbretRejected {l : Level} (running : s.runningCallback l = none) : Effect s (.cbret l) (s.respond .protocol 0)
  /-- A registration of a source already in use, or with an argument it cannot take. -/
  | unregistered {i : Instr} {st : Status} (status : st = .alreadyUsed ∨ st = .badArg)
      (word : (∃ id u d cb, i = .regt id u d cb) ∨ (∃ id n cb, i = .regc id n cb) ∨ ∃ id cb, i = .rege id cb)
      (legal : i.legal s.params = true) : Effect s i (s.respond st 0)
  | regt {id : SourceId} {u : TimeUnit} {d : BitVec 16} {cb : Handle} {t : TimerParams} {c : CalcResult}
      (timer : s.params.timer? id = some t) (used : (s.reg id).used = false) (handle : cb ≠ 0)
      (result : calculate s.params.fpb t (.time u) d.toNat = some c) :
      Effect s (.regt id u d cb) ((s.installTimer id t.width .int cb c).respond .ok 0)
  | regc {id : SourceId} {n : BitVec 16} {cb : Handle} {t : TimerParams} {c : CalcResult}
      (timer : s.params.timer? id = some t) (extok : t.extok = true) (used : (s.reg id).used = false) (handle : cb ≠ 0)
      (result : calculate s.params.fpb t .edge n.toNat = some c) :
      Effect s (.regc id n cb) ((s.installTimer id t.width .ext cb c).respond .ok 0)
  | rege {id : SourceId} {cb : Handle} (slot : s.params.slot id = .event) (used : (s.reg id).used = false)
      (handle : cb ≠ 0) : Effect s (.rege id cb) ((s.setReg id ((s.reg id).install cb)).respond .ok 0)
  | regePortChange {id : SourceId} {cb : Handle} (slot : s.params.slot id = .portChange) (used : (s.reg id).used = false)
      (handle : cb ≠ 0) :
      Effect s (.rege id cb) (State.respond { s.setReg id ((s.reg id).install cb) with prev := s.portv } .ok 0)
  | seten {id : SourceId} {v : Bool} (present : s.params.present id = true) :
      Effect s (.seten id v) ((s.setEnable id v).respond .ok 0)
  | setpri {id : SourceId} {l : Level} (present : s.params.present id = true) :
      Effect s (.setpri id l) ((s.setPriority id l).respond .ok 0)
  | tstf {id : SourceId} (present : s.params.present id = true) :
      Effect s (.tstf id) (s.respond .ok ((bit (s.reg id).flag).setWidth 64))
  | clrf {id : SourceId} (present : s.params.present id = true) :
      Effect s (.clrf id) ((s.setFlag id false).respond .ok 0)
  | query {id : SourceId} {sel : Selector} {v : BitVec 64} (field : s.readField id sel = some v) :
      Effect s (.query id sel) (s.respond .ok v)
  | disp {l : Level} (accepts : s.acceptsDispatch l = true) : Effect s (.disp l) ((s.enterDispatch l).respond .ok 0)
  | cbret {l : Level} {id : SourceId} (running : s.runningCallback l = some id) :
      Effect s (.cbret l) ((s.resumeAfter l id).respond .ok 0)
  | clk {n : BitVec 32} : Effect s (.clk n) (s.clockCycles n.toNat)
  | xedge {id : SourceId} {t : TimerParams} (timer : s.params.timer? id = some t) : Effect s (.xedge id) (s.externalEdge id)
  | raise {id : SourceId} (present : s.params.present id = true) : Effect s (.raise id) (s.setFlag id true)
  /-- PORT without a change that the PORTCHANGE source sees. -/
  | port {v : BitVec 8} (quiet : s.params.portChange? = none ∨ groupChanged s.portv v = false) :
      Effect s (.port v) { s with portv := v }
  | portFlag {v : BitVec 8} {rb : SourceId} (source : s.params.portChange? = some rb) (changed : groupChanged s.portv v = true) :
      Effect s (.port v) ({ s with portv := v }.setFlag rb true)

/-- Every word that is consumed has one of these effects. -/
theorem effect_of_exec {i : Instr} {s t : State} (h : exec i s = .next t) : Effect s i t := by
  have go : ∀ {u : State}, exec i s = .next u → Effect s i u → Effect s i t := fun e k => by
    rw [e] at h; cases h; exact k
  cases i with
  | nop => exact go rfl .nop
  | regt id u d cb =>
    rcases onTimer_cases s id fun t =>
      s.register id cb ((calculate s.params.fpb t (.time u) d.toNat).map (s.installTimer id t.width .int cb))
      with ⟨p, h₁, e⟩ | ⟨h₁, e⟩
    · refine go e ?_
      have hl : (Instr.regt id u d cb).legal s.params = true := by simp [Instr.legal, h₁]
      rcases register_cases s id cb ((calculate s.params.fpb p (.time u) d.toNat).map (s.installTimer id p.width .int cb))
        with ⟨-, e⟩ | ⟨-, -, e⟩ | ⟨a, b, _, hx, e⟩
      · simp only [e]; exact .unregistered (.inl rfl) (.inl ⟨_, _, _, _, rfl⟩) hl
      · simp only [e]; exact .unregistered (.inr rfl) (.inl ⟨_, _, _, _, rfl⟩) hl
      · obtain ⟨c, hc, rfl⟩ := Option.map_eq_some_iff.1 hx
        simp only [e]; exact .regt h₁ a b hc
    · exact go e (.illegal (by simp [Instr.carrier, Instr.opcode, Opcode.carrier]) (by simp [Instr.legal, h₁]))
  | regc id n cb =>
    rcases onExtTimer_cases s id fun t =>
      s.register id cb ((calculate s.params.fpb t .edge n.toNat).map (s.installTimer id t.width .ext cb))
      with ⟨p, h₁, h₂, e⟩ | ⟨h₁, e⟩
    · refine go e ?_
      have hl : (Instr.regc id n cb).legal s.params = true := by simp [Instr.legal, h₁, h₂]
      rcases register_cases s id cb ((calculate s.params.fpb p .edge n.toNat).map (s.installTimer id p.width .ext cb))
        with ⟨-, e⟩ | ⟨-, -, e⟩ | ⟨a, b, _, hx, e⟩
      · simp only [e]; exact .unregistered (.inl rfl) (.inr (.inl ⟨_, _, _, rfl⟩)) hl
      · simp only [e]; exact .unregistered (.inr rfl) (.inr (.inl ⟨_, _, _, rfl⟩)) hl
      · obtain ⟨c, hc, rfl⟩ := Option.map_eq_some_iff.1 hx
        simp only [e]; exact .regc h₁ h₂ a b hc
    · refine go e (.illegal (by simp [Instr.carrier, Instr.opcode, Opcode.carrier]) ?_)
      cases ht : s.params.timer? id with
      | none => simp [Instr.legal, ht]
      | some p => simp [Instr.legal, ht, h₁ p ht]
  | rege id cb =>
    rcases onEvent_cases s id (s.register id cb (some (s.installEvent id cb))) with ⟨h₁, e⟩ | ⟨h₁, e⟩
    · refine go e ?_
      have hl : (Instr.rege id cb).legal s.params = true := by
        rcases h₁ with h₁ | h₁ <;> simp [Instr.legal, Params.present, Params.timer?, h₁]
      rcases register_cases s id cb (some (s.installEvent id cb)) with ⟨-, e⟩ | ⟨-, -, e⟩ | ⟨a, b, _, hx, e⟩
      · rw [e]; exact .unregistered (.inl rfl) (.inr (.inr ⟨_, _, rfl⟩)) hl
      · rw [e]; exact .unregistered (.inr rfl) (.inr (.inr ⟨_, _, rfl⟩)) hl
      · cases hx
        rcases h₁ with h₁ | h₁
        · rw [e]; simp only [State.installEvent, h₁]; exact .rege h₁ a b
        · rw [e]; simp only [State.installEvent, h₁]; exact .regePortChange h₁ a b
    · refine go e (.illegal (by simp [Instr.carrier, Instr.opcode, Opcode.carrier]) ?_)
      rcases h₁ with h₁ | ⟨u, h₁⟩ <;> simp [Instr.legal, Params.present, Params.timer?, h₁]
  | seten id v =>
    rcases onPresent_cases s id ((s.setEnable id v).respond .ok 0) with ⟨h₁, e⟩ | ⟨h₁, e⟩
    · exact go e (.seten h₁)
    · exact go e (.illegal (by simp [Instr.carrier, Instr.opcode, Opcode.carrier]) h₁)
  | setpri id l =>
    rcases onPresent_cases s id ((s.setPriority id l).respond .ok 0) with ⟨h₁, e⟩ | ⟨h₁, e⟩
    · exact go e (.setpri h₁)
    · exact go e (.illegal (by simp [Instr.carrier, Instr.opcode, Opcode.carrier]) h₁)
  | tstf id =>
    rcases onPresent_cases s id (s.respond .ok ((bit (s.reg id).flag).setWidth 64)) with ⟨h₁, e⟩ | ⟨h₁, e⟩
    · exact go e (.tstf h₁)
    · exact go e (.illegal (by simp [Instr.carrier, Instr.opcode, Opcode.carrier]) h₁)
  | clrf id =>
    rcases onPresent_cases s id ((s.setFlag id false).respond .ok 0) with ⟨h₁, e⟩ | ⟨h₁, e⟩
    · exact go e (.clrf h₁)
    · exact go e (.illegal (by simp [Instr.carrier, Instr.opcode, Opcode.carrier]) h₁)
  | query id sel =>
    simp only [exec, execQuery] at h
    split at h
    · rename_i v hv; cases h; exact .query hv
    · rename_i hv
      cases h
      refine .illegal (by simp [Instr.carrier, Instr.opcode, Opcode.carrier]) ?_
      cases sel with
      | source f => simpa [State.readField, Instr.legal] using hv
      | global g => simpa [State.readField, Instr.legal] using hv
  | disp l =>
    cases h₁ : s.acceptsDispatch l
    · exact go (by simp [exec, execDisp, h₁]) (.dispRejected h₁)
    · exact go (by simp [exec, execDisp, h₁]) (.disp h₁)
  | cbret l =>
    cases h₁ : s.runningCallback l
    · exact go (by simp [exec, execCbret, h₁]) (.cbretRejected h₁)
    · exact go (by simp [exec, execCbret, h₁]) (.cbret h₁)
  | clk n => exact go rfl .clk
  | xedge id =>
    cases h₁ : s.params.timer? id
    · exact go (by simp [exec, execXedge, h₁, refusedWord]) (.refuse rfl (by simp [Instr.legal, h₁]))
    · exact go (by simp [exec, execXedge, h₁]) (.xedge h₁)
  | raise id =>
    cases h₁ : s.params.present id
    · exact go (by simp [exec, execRaise, h₁, refusedWord]) (.refuse rfl h₁)
    · exact go (by simp [exec, execRaise, h₁]) (.raise h₁)
  | port v =>
    cases h₁ : s.params.portChange? with
    | none => exact go (by simp [exec, execPort, h₁]) (.port (.inl h₁))
    | some rb =>
      cases h₂ : groupChanged s.portv v
      · exact go (by simp [exec, execPort, h₁, h₂]) (.port (.inr h₂))
      · exact go (by simp [exec, execPort, h₁, h₂]) (.portFlag h₁ h₂)

/-! ## The scanner -/

/-- What one scanner step at `l` can do, with the guards under which it happens. -/
inductive SvcEffect (s : State) (l : Level) : State → Prop
  /-- The level does not scan. -/
  | none (fsm : ∀ i, s.fsm l ≠ .scan i) : SvcEffect s l s
  /-- Every identity has been examined. -/
  | done (fsm : s.fsm l = .scan 32) : SvcEffect s l (s.endDispatch l)
  | skip {id : SourceId} (fsm : s.fsm l = .scan id.castSucc) (idle : s.serviceable l id = false) :
      SvcEffect s l (s.resumeAfter l id)
  | event {id : SourceId} (fsm : s.fsm l = .scan id.castSucc) (pending : s.serviceable l id = true)
      (slot : s.params.slot id = .event) : SvcEffect s l ((s.setFlag id false).fire l id)
  | portChange {id : SourceId} (fsm : s.fsm l = .scan id.castSucc) (pending : s.serviceable l id = true)
      (slot : s.params.slot id = .portChange) :
      SvcEffect s l (({ s.setFlag id false with chg := s.portv ^^^ s.prev, prev := s.portv }).fire l id)
  | timerCounts {id : SourceId} {t : TimerParams} (fsm : s.fsm l = .scan id.castSucc)
      (pending : s.serviceable l id = true) (slot : s.params.slot id = .timer t) (fires : (s.reg id).tickFires = false) :
      SvcEffect s l ((s.setReg id { (s.reg id).tick t.width with flag := false }).resumeAfter l id)
  | timerFires {id : SourceId} {t : TimerParams} (fsm : s.fsm l = .scan id.castSucc)
      (pending : s.serviceable l id = true) (slot : s.params.slot id = .timer t) (fires : (s.reg id).tickFires = true) :
      SvcEffect s l ((s.setReg id { (s.reg id).tick t.width with flag := false }).fire l id)

/-- Every scanner step has one of these effects. -/
theorem effect_of_svc (s : State) (l : Level) : SvcEffect s l (s.svc l) := by
  rcases s.svc_cases l with ⟨h, e⟩ | ⟨h, e⟩ | ⟨id, h, e⟩
  · rw [e]; exact .none h
  · rw [e]; exact .done h
  · rw [e]
    cases hp : s.serviceable l id with
    | false => rw [State.examine_of_not_serviceable hp]; exact .skip h hp
    | true =>
      rw [State.examine_of_serviceable hp]
      cases hs : s.params.slot id with
      | absent => exact absurd hs (present_iff.1 (serviceable_iff.1 hp).1)
      | event => rw [State.service_event hs]; exact .event h hp hs
      | portChange => rw [State.service_portChange hs]; exact .portChange h hp hs
      | timer t =>
        rw [State.service_timer hs]
        cases hf : (s.reg id).tickFires
        · exact .timerCounts h hp hs hf
        · exact .timerFires h hp hs hf

end Sys2Proof.Machine
end

