-- ==== Sys2Proof/Laws/PerInstr.lean ====
section
/-! SUPPORT. A fact about every instruction as syntax, one lemma for each constructor: its word carries its opcode and is routed to
its port (`30_encoding.md` R91, R92, R100). -/

namespace Sys2Proof.Laws.Opcodes

/-- The word of `i` has `i`'s OP value, and the test stream sends it to `i`'s port. -/
def Statement (i : Instr) : Prop := opField (encode i) = i.opcode.bits ∧ routePort (encode i) = i.carrier

theorem of_opField {i : Instr} (h : opField (encode i) = i.opcode.bits) : Statement i :=
  ⟨h, by simp only [routePort, h, Opcode.ofBits_bits, Instr.carrier]⟩

theorem nop : Statement .nop := of_opField (opField_assemble ..)
theorem regt (s : SourceId) (u : TimeUnit) (d : BitVec 16) (cb : Handle) : Statement (.regt s u d cb) := of_opField (opField_assemble ..)
theorem regc (s : SourceId) (n : BitVec 16) (cb : Handle) : Statement (.regc s n cb) := of_opField (opField_assemble ..)
theorem rege (s : SourceId) (cb : Handle) : Statement (.rege s cb) := of_opField (opField_assemble ..)
theorem seten (s : SourceId) (v : Bool) : Statement (.seten s v) := of_opField (opField_assemble ..)
theorem setpri (s : SourceId) (l : Level) : Statement (.setpri s l) := of_opField (opField_assemble ..)
theorem tstf (s : SourceId) : Statement (.tstf s) := of_opField (opField_assemble ..)
theorem clrf (s : SourceId) : Statement (.clrf s) := of_opField (opField_assemble ..)
theorem query (s : SourceId) (sel : Selector) : Statement (.query s sel) := of_opField (opField_assemble ..)
theorem disp (l : Level) : Statement (.disp l) := of_opField (opField_assemble ..)
theorem cbret (l : Level) : Statement (.cbret l) := of_opField (opField_assemble ..)
theorem clk (n : BitVec 32) : Statement (.clk n) := of_opField (opField_assemble ..)
theorem xedge (s : SourceId) : Statement (.xedge s) := of_opField (opField_assemble ..)
theorem raise (s : SourceId) : Statement (.raise s) := of_opField (opField_assemble ..)
theorem port (v : BitVec 8) : Statement (.port v) := of_opField (opField_assemble ..)

end Sys2Proof.Laws.Opcodes
end

