-- ==== Sys2Proof/Laws/Step.lean ====
section
/-! SUPPORT. The step, case by case, and what the choice of a move looks at: the FSMs, the words waiting and the schedule. -/

namespace Sys2Proof.Machine

/-- The step once the mark is set. -/
theorem step_refused {s : State} (h : s.refused = true) : step s = .refused .refusedMark := by
  simp only [step, h, if_true]

/-- The step with a move scheduled. -/
theorem step_scheduled {s : State} {m : Move} {rest : List Move} (h : s.refused = false) (hs : s.sched = m :: rest) :
    step s = takeMove m { s with sched := rest } := by
  simp only [step, h, hs, Bool.false_eq_true, if_false]

/-- The step with an empty schedule. -/
theorem step_unscheduled {s : State} (h : s.refused = false) (hs : s.sched = []) : step s = eagerStep s := by
  simp only [step, h, hs, Bool.false_eq_true, if_false]

/-- The hold looks at the FSMs only. -/
theorem portHeld_congr {s t : State} (p : Port) (h : t.fsmHigh = s.fsmHigh) (l : t.fsmLow = s.fsmLow) :
    portHeld p t = portHeld p s := by
  cases p <;> simp only [portHeld, State.held, State.inner, h, l]
  split
  · rfl
  · rename_i x _
    cases x <;> simp only [State.fsm, h, l]

/-- The scanner's enable looks at the FSMs only. -/
theorem svcEnabled_congr {s t : State} (m : Level) (h : t.fsmHigh = s.fsmHigh) (l : t.fsmLow = s.fsmLow) :
    t.svcEnabled m = s.svcEnabled m := by
  cases m <;> simp only [State.svcEnabled, h, l]

/-- What the scanner's move does. -/
theorem svcMove_cases (l : Level) (s : State) :
    (s.svcEnabled l = true ∧ svcMove l s = .next (s.svc l)) ∨ (s.svcEnabled l = false ∧ svcMove l s = .next s) := by
  unfold svcMove
  cases h : s.svcEnabled l
  · exact .inr ⟨rfl, if_neg (by simp)⟩
  · exact .inl ⟨rfl, if_pos rfl⟩

/-- The move of the eager schedule, case by case (`95_test_vectors.md`, conventions). -/
theorem eagerMove_cases (s : State) :
    (s.svcEnabled .high = true ∧ eagerMove s = some (.svc .high))
      ∨ (s.svcEnabled .high = false ∧ s.svcEnabled .low = true ∧ eagerMove s = some (.svc .low))
      ∨ (s.svcEnabled .high = false ∧ s.svcEnabled .low = false ∧ ∃ e rest, s.inbox = e :: rest
          ∧ eagerMove s = some (.word e.1))
      ∨ (s.svcEnabled .high = false ∧ s.svcEnabled .low = false ∧ s.inbox = [] ∧ eagerMove s = none) := by
  unfold eagerMove
  cases h : s.svcEnabled .high <;> cases h' : s.svcEnabled .low <;> cases hi : s.inbox <;> simp

/-- What an unscheduled step does. -/
theorem eagerStep_of_some {s : State} {m : Move} (h : eagerMove s = some m) : eagerStep s = takeMove m s := by
  simp only [eagerStep, h]

theorem eagerStep_of_none {s : State} (h : eagerMove s = none) : eagerStep s = restOutcome s := by
  simp only [eagerStep, h]

/-- Every step that answers a next state is one move, on the state itself or on the state whose schedule has lost its head;
or it rests. -/
theorem step_cases {s t : State} (h : step s = .next t) :
    s.refused = false
      ∧ ((∃ m rest, s.sched = m :: rest ∧ takeMove m { s with sched := rest } = .next t)
        ∨ (∃ m, s.sched = [] ∧ eagerMove s = some m ∧ takeMove m s = .next t)
        ∨ (s.sched = [] ∧ s.inbox = [] ∧ t = s)) := by
  by_cases hr : s.refused = true
  · rw [step_refused hr] at h; cases h
  · have hr := Bool.eq_false_iff.2 hr
    refine ⟨hr, ?_⟩
    rcases hs : s.sched with _ | ⟨m, rest⟩
    swap
    · rw [step_scheduled hr hs] at h; exact .inl ⟨m, rest, rfl, h⟩
    · rw [step_unscheduled hr hs] at h
      rcases eagerMove_cases s with ⟨-, e⟩ | ⟨-, -, e⟩ | ⟨-, -, _, _, -, e⟩ | ⟨-, -, hi, e⟩
      · rw [eagerStep_of_some e] at h; exact .inr (.inl ⟨_, rfl, e, h⟩)
      · rw [eagerStep_of_some e] at h; exact .inr (.inl ⟨_, rfl, e, h⟩)
      · rw [eagerStep_of_some e] at h; exact .inr (.inl ⟨_, rfl, e, h⟩)
      · rw [eagerStep_of_none e, restOutcome] at h
        cases hn : s.nocb
        · rw [hn] at h; cases h; exact .inr (.inr ⟨rfl, hi, rfl⟩)
        · rw [hn] at h; cases h

/-- A step that takes a move, with what the move did: one word's instruction, a word that spells none, a held or absent word,
a scanner step, or nothing. `u` is the state the move acts on. -/
theorem takeMove_cases {m : Move} {u t : State} (h : takeMove m u = .next t) :
    (∃ p w i, m = .word p ∧ headOf p u.inbox = some w ∧ portHeld p u = false ∧ decodeOn p w = .ok i
        ∧ exec i { u with inbox := dropHead p u.inbox } = .next t)
      ∨ (∃ p w e, m = .word p ∧ headOf p u.inbox = some w ∧ portHeld p u = false ∧ decodeOn p w = .error e
          ∧ ((p ≠ .stimulus ∧ t = State.respond { u with inbox := dropHead p u.inbox } .illegal 0)
            ∨ (p = .stimulus ∧ t = State.refuse { u with inbox := dropHead p u.inbox })))
      ∨ (∃ l, m = .svc l ∧ u.svcEnabled l = true ∧ t = u.svc l)
      ∨ t = u := by
  cases m with
  | word p =>
    rcases wordMove_cases p u with ⟨-, e⟩ | ⟨w, hw, ⟨-, e⟩ | ⟨hh, e⟩⟩
    · exact .inr (.inr (.inr (by rw [takeMove, e] at h; cases h; rfl)))
    · exact .inr (.inr (.inr (by rw [takeMove, e] at h; cases h; rfl)))
    · rw [takeMove, e] at h
      rcases consume_cases p w { u with inbox := dropHead p u.inbox } with ⟨i, hi, e⟩ | ⟨x, hx, ⟨hp, e⟩ | ⟨hp, e⟩⟩
      · exact .inl ⟨p, w, i, rfl, hw, hh, hi, by rw [← e, h]⟩
      · rw [e] at h; cases h; exact .inr (.inl ⟨p, w, x, rfl, hw, hh, hx, .inl ⟨hp, rfl⟩⟩)
      · rw [e] at h; cases h; exact .inr (.inl ⟨p, w, x, rfl, hw, hh, hx, .inr ⟨hp, rfl⟩⟩)
  | svc l =>
    rcases svcMove_cases l u with ⟨hh, e⟩ | ⟨-, e⟩
    · rw [takeMove, e] at h; cases h; exact .inr (.inr (.inl ⟨l, rfl, hh, rfl⟩))
    · exact .inr (.inr (.inr (by rw [takeMove, e] at h; cases h; rfl)))

end Sys2Proof.Machine
end

