-- ==== Sys2Proof/Tests/Slice0.lean ====
section
/-! SUPPORT. The model's own tests. Expected results are taken from `95_test_vectors.md` and from the examples of the rules; the
witnesses at the end show that the hypotheses of the statements can be met. -/

namespace Sys2Proof.Tests

open Sys2Proof.Machine Sys2Proof.Claims

/-- The state a word's effect leaves. -/
def after (i : Instr) (s : State) : State :=
  match exec i s with
  | .next t => t
  | .fault _ => s
  | .refused _ => s

/-- The state one step leaves. -/
def stepped (s : State) : State :=
  match step s with
  | .next t => t
  | .fault _ => s
  | .refused _ => s

/-- The last response. -/
def answer (s : State) : Option Response := s.responses.getLast?

/-- An enabled and pending source with a handle and nothing else set. -/
def pendingReg : SourceRegs := { SourceRegs.reset .high with used := true, ie := true, flag := true, cb := 0x9 }

/-- The reset state with the fields of one source and `FSM[HIGH]` given. -/
def scanning (id : SourceId) (r : SourceRegs) : State :=
  { State.reset.setReg id r with fsmHigh := .scan id.castSucc }

/-- TMR0 right after `regt TMR0, MS, 1, 0x1000` at 48 MHz (S2). -/
def oneMs : SourceRegs :=
  { SourceRegs.reset .high with used := true, ie := true, cb := 0x1000, rld := 0x447F, tmr := 0x447F, ton := true }

/-- RC1's TMR0 and TMR2. -/
def timer0 : TimerParams := ⟨.bits16, [1, 2, 4, 8, 16, 32, 64, 128, 256], [1], true⟩
def timer2 : TimerParams := ⟨.bits8, [1, 4, 16], [1, 2, 3, 4, 5, 6, 7, 8, 9, 10, 11, 12, 13, 14, 15, 16], false⟩

/-- A record with one event source, of another frequency and reset priority. -/
def small : Params := { fpb := 500000, ipReset := .low, slots := Vector.ofFn fun s => if s = 0 then .event else .absent }

/-! ## WellFormed: an ill-formed term for each check -/

theorem test_wellFormed_refuses_global_selector_with_source :
    (Instr.query 1 (.global .portv)).wellFormed = false ∧ (Instr.query 0 (.global .portv)).wellFormed = true := by decide

theorem test_legal_refuses_wrong_class :
    (Instr.regt 9 .ms 1 1).legal Params.rc1 = false ∧ (Instr.regc 2 1 1).legal Params.rc1 = false
      ∧ (Instr.regc 9 1 1).legal Params.rc1 = false ∧ (Instr.rege 0 1).legal Params.rc1 = false
      ∧ (Instr.xedge 9).legal Params.rc1 = false ∧ (Instr.query 13 (.source .cnt)).legal Params.rc1 = false := by decide

theorem test_legal_refuses_absent_sources :
    (Instr.regt 20 .ms 1 1).legal Params.rc1 = false ∧ (Instr.rege 20 1).legal Params.rc1 = false
      ∧ (Instr.seten 31 true).legal Params.rc1 = false ∧ (Instr.setpri 20 .low).legal Params.rc1 = false
      ∧ (Instr.tstf 20).legal Params.rc1 = false ∧ (Instr.clrf 31).legal Params.rc1 = false
      ∧ (Instr.raise 20).legal Params.rc1 = false ∧ (Instr.query 20 (.source .used)).legal Params.rc1 = false := by decide

/-- R11 and the register widths, one broken constraint each. -/
theorem test_record_constraints :
    Params.rc1.wf = true ∧ ({ timer0 with pset := [2] } : TimerParams).wf = false
      ∧ ({ timer0 with qset := [] } : TimerParams).wf = false ∧ ({ timer0 with pset := [0, 1] } : TimerParams).wf = false
      ∧ ({ timer2 with pset := [1], qset := [1, 256] } : TimerParams).wf = false
      ∧ ({ timer2 with pset := [1], qset := [1, 255] } : TimerParams).wf = true
      ∧ ({ Params.rc1 with fpb := 0 } : Params).wf = false := by decide

/-! ## Decoding: one word of each opcode, from R91 to R93 and V2 -/

theorem test_decode_nop : decodeWord 0x0000000000000000#64 = .ok .nop := by decide
/-- OP 0001, SRC 00000, UNIT 001, VAL 0, bits 50 to 48 zero, IMM16 1, IMM32 0x1000. -/
theorem test_decode_regt :
    decodeWord (0b0001#4 ++ 0b00000#5 ++ 0b001#3 ++ 0b0#1 ++ 0b000#3 ++ 0x0001#16 ++ 0x00001000#32)
      = .ok (.regt 0 .ms 1 0x1000) := by decide
theorem test_decode_regc : decodeWord 0x2080000300007000#64 = .ok (.regc 1 3 0x7000) := by decide
theorem test_decode_rege : decodeWord 0x3680000000004000#64 = .ok (.rege 13 0x4000) := by decide
theorem test_decode_seten :
    decodeWord 0x4180000000000000#64 = .ok (.seten 3 false) ∧ decodeWord 0x4008000000000000#64 = .ok (.seten 0 true) := by
  decide
theorem test_decode_setpri : decodeWord 0x5480000000000000#64 = .ok (.setpri 9 .low) := by decide
theorem test_decode_tstf : decodeWord 0x6680000000000000#64 = .ok (.tstf 13) := by decide
theorem test_decode_clrf : decodeWord 0x7700000000000000#64 = .ok (.clrf 14) := by decide
/-- OP 1000, SRC 00000, bits 54 to 40 zero, SEL8 0x0C, bits 31 to 0 zero. -/
theorem test_decode_query :
    decodeWord (0b1000#4 ++ 0b00000#5 ++ 0#15 ++ 0x0C#8 ++ 0#32) = .ok (.query 0 (.source .tmr))
      ∧ decodeWord 0x8000001600000000#64 = .ok (.query 0 (.global .irq)) := by decide
theorem test_decode_disp :
    decodeWord 0x9008000000000000#64 = .ok (.disp .high) ∧ decodeWord 0x9000000000000000#64 = .ok (.disp .low) := by decide
theorem test_decode_cbret : decodeWord 0xA008000000000000#64 = .ok (.cbret .high) := by decide
theorem test_decode_clk : decodeWord 0xC00000000000BB80#64 = .ok (.clk 48000) := by decide
theorem test_decode_xedge : decodeWord 0xD080000000000000#64 = .ok (.xedge 1) := by decide
theorem test_decode_raise : decodeWord 0xE480000000000000#64 = .ok (.raise 9) := by decide
/-- OP 1111, bits 59 to 40 zero, SEL8 0x90, bits 31 to 0 zero. -/
theorem test_decode_port : decodeWord (0b1111#4 ++ 0#20 ++ 0x90#8 ++ 0#32) = .ok (.port 0x90) := by decide

/-- The encoder on the words of V2 with every operand set. -/
theorem test_encode :
    encode (.regt 0 .ms 1 0x1000) = 0x1010000100001000#64 ∧ encode (.regc 1 3 0x7000) = 0x2080000300007000#64
      ∧ encode (.setpri 9 .low) = 0x5480000000000000#64 ∧ encode (.query 0 (.source .tmr)) = 0x8000000C00000000#64
      ∧ encode (.cbret .high) = 0xA008000000000000#64 ∧ encode (.port 0x90) = 0xF000009000000000#64 := by decide

/-- The decode corner cases of V2. -/
theorem test_decode_refuses_reserved_bits :
    decodeWord 0xB000000000000000#64 = .error .reservedOpcode ∧ decodeWord 0x0000000000000001#64 = .error .mustBeZero
      ∧ decodeWord 0x1011000100001000#64 = .error .mustBeZero ∧ decodeWord 0x1018000100001000#64 = .error .mustBeZero
      ∧ decodeWord 0x2010FFFF00007000#64 = .error .mustBeZero ∧ decodeWord 0x3700000100004000#64 = .error .mustBeZero
      ∧ decodeWord 0x4008000000000001#64 = .error .mustBeZero ∧ decodeWord 0x8000011000000000#64 = .error .mustBeZero
      ∧ decodeWord 0x9008000000000001#64 = .error .mustBeZero ∧ decodeWord 0xA008000000000001#64 = .error .mustBeZero := by
  decide

theorem test_decode_refuses_reserved_values :
    decodeWord 0x1030000100001000#64 = .error .reservedUnit ∧ decodeWord 0x8000000F00000000#64 = .error .reservedSelector
      ∧ decodeWord 0x8000001700000000#64 = .error .reservedSelector
      ∧ decodeWord 0x8080001000000000#64 = .error .globalSelectorWithSource
      ∧ decodeOn .command 0x9008000000000000#64 = .error .wrongPort
      ∧ decodeOn .stimulus 0x0000000000000000#64 = .error .wrongPort := by decide

/-- Lines of V2 (R105, R106). -/
theorem test_assembleLine :
    assembleLine "regt TMR0, MS, 1, 0x1000" = some (.regt 0 .ms 1 0x1000) ∧ assembleLine "rege RB, 0x4000" = some (.rege 13 0x4000)
      ∧ assembleLine "query TMR0, 0x0C" = some (.query 0 (.source .tmr)) ∧ assembleLine "DISP high" = some (.disp .high)
      ∧ assembleLine "enable 31" = some (.seten 31 true) ∧ assembleLine "seten TMR0, 2" = none := by decide

/-! ## The calculator (V1, R135) -/

set_option maxRecDepth 20000 in
theorem test_calculate_first_and_boundary_rows :
    calculate 48000000 timer0 (.time .ms) 1 = some ⟨1, 1, 48000, 0, 0x447F⟩
      ∧ calculate 48000000 timer0 (.time .us) 1366 = some ⟨2, 1, 32784, 0, 0x7FEF⟩
      ∧ calculate 48000000 timer2 (.time .us) 6 = some ⟨1, 2, 144, 0, 0x6F⟩
      ∧ calculate 48000000 timer2 (.time .ms) 1 = some ⟨16, 12, 250, 0, 0x05⟩ := by decide

set_option maxRecDepth 20000 in
theorem test_calculate_software_limit_and_invalid :
    calculate 48000000 timer0 (.time .sec) 1 = some ⟨256, 1, 62500, 2, 0x0BDB⟩
      ∧ calculate 4294967295 timer2 (.time .sec) 65535 = some ⟨16, 16, 255, 4294901759, 0x00⟩
      ∧ calculate 500000 timer0 (.time .us) 1 = none ∧ calculate 48000000 timer0 .edge 0 = none := by decide

/-- Log entry 6: here the implied period exceeds the exact one by exactly one tick, where R135 says "less than". -/
theorem test_exact_bound_is_met_with_equality :
    calculate (2 ^ 24) timer0 (.time .sec) 65535 = some ⟨256, 1, 65535, 65535, 0⟩
      ∧ CalcResult.period ⟨256, 1, 65535, 65535, 0⟩ = 2 ^ 24 * 65535 + CalcResult.tick ⟨256, 1, 65535, 65535, 0⟩ := by decide

/-! ## The words (the rules' examples and S1 to S9) -/

theorem test_nop : answer (after .nop State.reset) = some ⟨.ok, 0⟩ := by decide
/-- S2. -/
theorem test_regt : (after (.regt 0 .ms 1 0x1000) State.reset).reg 0 = oneMs
    ∧ answer (after (.regt 0 .ms 1 0x1000) State.reset) = some ⟨.ok, 0⟩ := by decide
/-- ALREADY_USED comes before BAD_ARG (R245). -/
theorem test_regt_already_used :
    answer (after (.regt 0 .ms 0 0) (State.reset.setReg 0 oneMs)) = some ⟨.alreadyUsed, 0⟩
      ∧ answer (after (.regt 0 .ms 0 1) State.reset) = some ⟨.badArg, 0⟩ := by decide
theorem test_regc :
    let r := (after (.regc 1 100 0x2000) State.reset).reg 1
    r.cs = .ext ∧ r.rld = 0xFF9B ∧ r.tmr = 0xFF9B ∧ r.lim = 0 ∧ r.ton = true := by decide
/-- An 8-bit channel without a count input. -/
theorem test_regc_illegal : answer (after (.regc 2 100 0x2000) State.reset) = some ⟨.illegal, 0⟩ := by decide
theorem test_rege :
    let r := (after (.rege 9 0x3000) State.reset).reg 9
    r.cb = 0x3000 ∧ r.ie = true ∧ r.used = true ∧ r.flag = false := by decide
/-- S1, step 2: the baseline. -/
theorem test_rege_port_change : (after (.rege 13 0x4000) { State.reset with portv := 0xA0 }).prev = 0xA0 := by decide
/-- S7: disabling keeps the handle and the channel. -/
theorem test_seten :
    (after (.seten 0 false) (State.reset.setReg 0 oneMs)).reg 0 = { oneMs with ie := false, used := false } := by decide
theorem test_setpri : ((after (.setpri 1 .low) State.reset).reg 1).ip = .low := by decide
theorem test_tstf :
    answer (after (.tstf 9) State.reset) = some ⟨.ok, 0⟩
      ∧ answer (after (.tstf 9) (State.reset.setReg 9 pendingReg)) = some ⟨.ok, 1⟩ := by decide
theorem test_clrf : ((after (.clrf 9) (State.reset.setReg 9 pendingReg)).reg 9).flag = false := by decide
theorem test_query :
    answer (after (.query 0 (.source .rld)) (State.reset.setReg 0 oneMs)) = some ⟨.ok, 0x447F⟩
      ∧ answer (after (.query 2 (.source .ip)) State.reset) = some ⟨.ok, 1⟩
      ∧ answer (after (.query 2 (.source .ps)) State.reset) = some ⟨.ok, 1⟩ := by decide
/-- The FSM code of R50 and the IRQ pair of R53. -/
theorem test_query_global :
    answer (after (.query 0 (.global .fsmHigh)) { State.reset with fsmHigh := .wait 13 }) = some ⟨.ok, 0x8D⟩
      ∧ answer (after (.query 0 (.global .irq)) (State.reset.setReg 9 pendingReg)) = some ⟨.ok, 2⟩ := by decide
theorem test_disp :
    (after (.disp .high) State.reset).fsmHigh = .scan 0
      ∧ answer (after (.disp .low) { State.reset with fsmHigh := .wait 0 }) = some ⟨.protocol, 0⟩ := by decide
theorem test_cbret :
    (after (.cbret .high) { State.reset with fsmHigh := .wait 0 }).fsmHigh = .scan 1
      ∧ answer (after (.cbret .low) { State.reset with fsmHigh := .wait 0, fsmLow := .wait 3 }) = some ⟨.protocol, 0⟩ := by
  decide
/-- S3: one cycle short of the wrap. -/
theorem test_clk :
    let r := (after (.clk 48000) (State.reset.setReg 0 oneMs)).reg 0
    r.tmr = 0xFFFF ∧ r.flag = false := by decide
/-- S3: the wrap reloads the counter and sets the flag. -/
theorem test_clk_wraps :
    (after (.clk 48001) (State.reset.setReg 0 oneMs)).reg 0 = { oneMs with flag := true } := by decide
/-- The 101st edge of R223's example; an edge on a channel in INT mode is ignored. -/
theorem test_xedge :
    let r := { oneMs with rld := 0xFF9B, cs := .ext, tmr := 0xFFFF }
    (after (.xedge 1) (State.reset.setReg 1 r)).reg 1 = { r with tmr := 0xFF9B, flag := true }
      ∧ (after (.xedge 0) (State.reset.setReg 0 oneMs)).reg 0 = oneMs := by decide
theorem test_xedge_refused : (after (.xedge 9) State.reset).refused = true := by decide
theorem test_raise : ((after (.raise 9) State.reset).reg 9).flag = true ∧ (after (.raise 20) State.reset).refused = true := by
  decide
/-- S1, step 3. -/
theorem test_port :
    let s := after (.port 0x90) { State.reset with portv := 0xA0 }
    s.portv = 0x90 ∧ (s.reg 13).flag = true := by decide
/-- Pins 0 to 3 set no flag. -/
theorem test_port_low_pins : ((after (.port 0x0F) State.reset).reg 13).flag = false := by decide

/-! ## The channel and the scanner -/

/-- R221 with a prescaler of 4 and a postscaler of 2: three edges advance the prescaler only, the fourth wraps the counter and
counts one overflow. -/
theorem test_edge_dividers :
    let r := { oneMs with ps := 4, qs := 2, psc := 3, tmr := 0xFF, rld := 0x1F0 }
    r.edge .bits8 = { r with psc := 0, tmr := 0xF0, pst := 1 }
      ∧ ({ r with psc := 2 } : SourceRegs).edge .bits8 = { r with psc := 3 } := by decide

/-- A dispatch with nothing pending passes an identity (R196). -/
theorem test_svc_skips : (State.svc { State.reset with fsmHigh := .scan 31 } .high).fsmHigh = .scan 32 := by decide

/-- The end of the scan (R195). -/
theorem test_svc_ends :
    let s := State.svc { State.reset with fsmLow := .scan 32 } .low
    s.fsmLow = .idle ∧ s.events = [.done .low] := by decide

/-- R198's example: `LIM = 2`, `CNT = 2`. -/
theorem test_svc_timer_fires :
    let s := (scanning 0 { oneMs with flag := true, lim := 2, cnt := 2, tmr := 0x5000 }).svc .high
    s.fsmHigh = .wait 0 ∧ s.events = [.fire .high 0 0x1000] ∧ s.reg 0 = { oneMs with lim := 2 } := by decide

theorem test_svc_timer_counts :
    let s := (scanning 0 { oneMs with flag := true, lim := 2, cnt := 1 }).svc .high
    s.fsmHigh = .scan 1 ∧ s.events = [] ∧ (s.reg 0).cnt = 2 ∧ (s.reg 0).flag = false := by decide

/-- S1, step 4: the change mask. -/
theorem test_svc_port_change :
    let s := State.svc { scanning 13 pendingReg with prev := 0xA0, portv := 0x90 } .high
    s.chg = 0x30 ∧ s.prev = 0x90 ∧ s.fsmHigh = .wait 13 ∧ s.events = [.fire .high 13 0x9] := by decide

/-- A null handle (R201). -/
theorem test_svc_null_handle :
    let s := (scanning 9 { pendingReg with cb := 0 }).svc .high
    s.nocb = true ∧ s.fsmHigh = .scan 10 ∧ s.events = [] ∧ (s.reg 9).flag = false := by decide

/-! ## The step -/

/-- The eager schedule takes the scanner's step before a waiting command word, HIGH before LOW. -/
theorem test_step_scanner_first :
    let s := State.send { State.reset with fsmHigh := .scan 32, fsmLow := .scan 5 } [0x0000000000000000#64]
    (stepped s).fsmHigh = .idle ∧ (stepped s).inbox = s.inbox ∧ (stepped (stepped s)).fsmLow = .scan 6 := by decide

/-- DISP on the command port (V2) is consumed and answered ILLEGAL. -/
theorem test_step_wrong_port :
    let s := stepped { State.reset with inbox := [(.command, 0x9008000000000000#64)] }
    answer s = some ⟨.illegal, 0⟩ ∧ s.inbox = [] ∧ s.fsmHigh = .idle := by decide

/-- The word the host places runs in the next step; a malformed stimulus word sets the mark, and the step after it is refused. -/
theorem test_withFetchWord :
    (stepped (State.reset.withFetchWord 64 0xE480000000000000)).reg 9 = { SourceRegs.reset .high with flag := true }
      ∧ step (stepped (State.reset.withFetchWord 64 0xE480000000000001)) = .refused .refusedMark := by
  constructor
  · decide
  · exact step_refused (by decide)

/-- At rest: nothing happens, or the fault of R247. -/
theorem test_step_at_rest :
    stepped State.reset = State.reset ∧ step { State.reset with nocb := true } = .fault .nocbAtRest :=
  ⟨by decide, rfl⟩

/-! ## Witnesses: for each statement with hypotheses, a state and operands that meet them, clause by clause -/

/-- And the hypothesis of the second clause of `NoStepOnceRefused`. -/
theorem witness_ResetLeavesTheTableOfResetValues : Params.rc1.wf = true ∧ ({ small with fpb := 0 } : Params).wf = false := by
  decide

theorem witness_RegtProgramsTheTimerOrAnswersWhy :
    State.reset.params.timer? 9 = none ∧ State.reset.params.timer? 0 = some timer0 ∧ State.reset.params.timer? 8 = some timer2
      ∧ ((State.reset.setReg 0 oneMs).reg 0).used = true ∧ (State.reset.reg 0).used = false
      ∧ calculate State.reset.params.fpb timer0 (.time .ms) (0 : BitVec 16).toNat = none ∧ (1 : Handle) ≠ 0
      ∧ calculate State.reset.params.fpb timer0 (.time .sec) (0xFFFF : BitVec 16).toNat
          = some ⟨256, 1, 65535, 187497, 0x0000⟩ := by decide

theorem witness_RegcProgramsTheCounterOrAnswersWhy :
    State.reset.params.timer? 13 = none ∧ State.reset.params.timer? 0 = some timer0 ∧ timer0.extok = true
      ∧ State.reset.params.timer? 8 = some timer2 ∧ timer2.extok = false
      ∧ ((State.reset.setReg 0 oneMs).reg 0).used = true ∧ (State.reset.reg 0).used = false
      ∧ calculate State.reset.params.fpb timer0 .edge (0 : BitVec 16).toNat = none ∧ (1 : Handle) ≠ 0
      ∧ calculate State.reset.params.fpb timer0 .edge (0xFFFF : BitVec 16).toNat = some ⟨1, 1, 65535, 0, 0⟩ := by decide

theorem witness_RegeInstallsTheEventOrAnswersWhy :
    State.reset.params.slot 31 = .absent ∧ State.reset.params.slot 0 = .timer timer0 ∧ State.reset.params.slot 19 = .event
      ∧ State.reset.params.slot 13 = .portChange ∧ ((State.reset.setReg 19 pendingReg).reg 19).used = true
      ∧ ((State.reset.setReg 13 pendingReg).reg 13).used = true ∧ (State.reset.reg 19).used = false
      ∧ (State.reset.reg 13).used = false ∧ (1 : Handle) ≠ 0 := by decide

/-- For SETEN, SETPRI, TSTF, CLRF and RAISE. -/
theorem witness_words_over_present_sources :
    State.reset.params.present 0 = true ∧ State.reset.params.present 19 = true ∧ State.reset.params.present 20 = false
      ∧ State.reset.params.present 31 = false := by decide

theorem witness_QueryReadsEveryPerSourceField :
    State.reset.params.present 19 = true ∧ (State.reset.params.timer? 8).isSome = true
      ∧ State.reset.params.present 31 = false ∧ State.reset.params.timer? 13 = none
      ∧ SourceField.cnt ∉ [SourceField.used, .ie, .flag, .ip, .cb]
      ∧ SourceField.pst ∉ [SourceField.used, .ie, .flag, .ip, .cb] := by decide

theorem witness_QueryReadsEveryGlobalField :
    State.reset.fsmHigh = .idle ∧ State.reset.fsmLow = .idle
      ∧ ({ State.reset with fsmHigh := .scan 32, fsmLow := .wait 31 } : State).fsmHigh = .scan 32
      ∧ ({ State.reset with fsmHigh := .scan 32, fsmLow := .wait 31 } : State).fsmLow = .wait 31
      ∧ (31 : SourceId) ≠ 0 := by decide

/-- A dispatch is accepted at each level; the same level again and LOW inside HIGH are not. -/
theorem witness_DispEntersTheDispatchOrAnswersProtocol :
    (State.reset.fsm .low = .idle ∧ State.reset.fsmHigh = .idle)
      ∧ ({ State.reset with fsmLow := .wait 31 } : State).fsm .high = .idle
      ∧ ({ State.reset with fsmLow := .wait 31 } : State).fsm .low ≠ .idle
      ∧ ({ State.reset with fsmHigh := .scan 32 } : State).fsmHigh ≠ .idle := by decide

theorem witness_CbretResumesTheScanOrAnswersProtocol :
    ({ State.reset with fsmHigh := .wait 31 } : State).fsm .high = .wait 31
      ∧ (({ State.reset with fsmLow := .wait 0 } : State).fsm .low = .wait 0
        ∧ ({ State.reset with fsmLow := .wait 0 } : State).fsmHigh = .idle)
      ∧ (∀ i, State.reset.fsm .high ≠ .wait i)
      ∧ ({ State.reset with fsmLow := .wait 0, fsmHigh := .wait 31 } : State).fsmHigh ≠ .idle := by decide

theorem witness_XedgeCountsOneExternalEdge :
    State.reset.params.timer? 0 = some timer0 ∧ State.reset.params.timer? 31 = none
      ∧ ((State.reset.setReg 0 { oneMs with cs := .ext }).reg 0).ton = true
      ∧ ((State.reset.setReg 0 { oneMs with cs := .ext }).reg 0).cs = .ext
      ∧ (State.reset.reg 0).ton = false ∧ ((State.reset.setReg 0 oneMs).reg 0).cs = .int := by decide

theorem witness_PortTakesThePinsAndFlagsAGroupChange :
    State.reset.params.portChange? = some 13 ∧ ((0x10 : BitVec 8) ^^^ State.reset.portv) &&& 0xF0 ≠ 0
      ∧ (State.resetWith small).params.portChange? = none ∧ ((0x0F : BitVec 8) ^^^ State.reset.portv) &&& 0xF0 = 0 := by decide

/-- The four cases of an edge, each at its boundary. -/
theorem witness_EdgeAdvancesTheChannel :
    ({ oneMs with ps := 2 } : SourceRegs).psc + 1 ≠ 2 ∧ oneMs.psc + 1 = oneMs.ps
      ∧ ({ oneMs with tmr := 0xFE } : SourceRegs).tmr.toNat < TimerWidth.bits8.maxw
      ∧ ({ oneMs with tmr := 0xFF } : SourceRegs).tmr.toNat = TimerWidth.bits8.maxw
      ∧ ({ oneMs with qs := 2 } : SourceRegs).pst + 1 ≠ 2 ∧ oneMs.pst + 1 = oneMs.qs := by decide

theorem witness_ScannerEndsTheScanAndSkipsIdentitiesWithNothingToDo :
    ({ State.reset with fsmHigh := .scan 32 } : State).fsm .high = .scan 32
      ∧ (scanning 31 pendingReg).fsm .high = .scan (31 : SourceId).castSucc
      ∧ (scanning 31 pendingReg).params.present 31 = false
      ∧ ((scanning 19 { pendingReg with ip := .low }).reg 19).ip ≠ .high
      ∧ ((scanning 0 { pendingReg with ie := false }).reg 0).ie = false
      ∧ ((scanning 0 { pendingReg with flag := false }).reg 0).flag = false := by decide

theorem witness_TimerServiceReloadsCountsAndFiresPastTheLimit :
    let on : SourceRegs := { oneMs with flag := true, lim := 1 }
    (scanning 0 on).params.timer? 0 = some timer0 ∧ (scanning 0 on).fsm .high = .scan (0 : SourceId).castSucc
      ∧ (scanning 8 on).params.timer? 8 = some timer2 ∧ (scanning 8 on).fsm .high = .scan (8 : SourceId).castSucc
      ∧ ((scanning 0 on).reg 0).ip = .high ∧ ((scanning 0 on).reg 0).ie = true ∧ ((scanning 0 on).reg 0).flag = true
      ∧ on.cnt.toNat + 1 ≤ on.lim.toNat
      ∧ ({ on with cnt := 1 } : SourceRegs).lim.toNat < ({ on with cnt := 1 } : SourceRegs).cnt.toNat + 1
      ∧ ((scanning 0 on).reg 0).cb ≠ 0 ∧ ((scanning 0 { on with cb := 0 }).reg 0).cb = 0 := by decide

theorem witness_EventAndPortChangeServiceFireOnEveryFlag :
    (scanning 19 pendingReg).fsm .high = .scan (19 : SourceId).castSucc ∧ (scanning 19 pendingReg).params.slot 19 = .event
      ∧ (scanning 13 pendingReg).fsm .high = .scan (13 : SourceId).castSucc
      ∧ (scanning 13 pendingReg).params.slot 13 = .portChange ∧ ((scanning 13 pendingReg).reg 13).ip = .high
      ∧ ((scanning 13 pendingReg).reg 13).ie = true ∧ ((scanning 13 pendingReg).reg 13).flag = true
      ∧ ((scanning 13 pendingReg).reg 13).cb ≠ 0 ∧ ((scanning 13 { pendingReg with cb := 0 }).reg 13).cb = 0 := by decide

/-- A LOW dispatch and a HIGH one inside it, and a pending source for each clause. -/
theorem witness_DispatchServicesEveryPendingSourceInOrder :
    ({ State.reset with fsmLow := .scan 0 } : State).fsm .low = .scan 0
      ∧ ({ State.reset with fsmLow := .scan 0 } : State).fsmHigh = .idle
      ∧ ({ State.reset with fsmHigh := .scan 0, fsmLow := .wait 3 } : State).fsm .high = .scan 0
      ∧ (scanning 0 pendingReg).serviceable .high 0 = true ∧ (scanning 0 pendingReg).serviceable .high 31 = false := by decide

theorem witness_TimerFiresOnceEveryLimitPlusOneServices :
    oneMs.cnt = 0 ∧ oneMs.tickFires = true ∧ ({ oneMs with lim := 1 } : SourceRegs).tickFires = false := by decide

/-- For the statements about the calculator: a well-formed slot, the largest operands, and a target of 0. -/
theorem witness_calculator :
    timer0.meetsR11 = true ∧ 4294967295 < 2 ^ 32 ∧ 65535 < 2 ^ 16
      ∧ calculate 4294967295 timer0 (.time .sec) 65535 = some ⟨256, 1, 65535, 16776959, 0x0000⟩
      ∧ 65535 < dmax timer0 * (timer0.width.maxw + 1) ∧ calculate 4294967295 timer0 (.time .sec) 0 = none
      ∧ 0 < targetCycles 1000000 (.time .us) 1 ∧ targetCycles 48000000 (.time .us) 1365 ≤ timer0.width.maxw
      ∧ 1 ≤ 187 ∧ 187 < 187 + 1 ∧ 128 * 1 < 256 * 1 := by decide

/-- For the two statements about a channel that starts at its reload. -/
theorem witness_channel_at_reload :
    oneMs.flag = false ∧ oneMs.psc = 0 ∧ oneMs.pst = 0 ∧ oneMs.cnt = 0 ∧ 1 ≤ oneMs.ps.toNat ∧ 1 ≤ oneMs.qs.toNat
      ∧ oneMs.rld.toNat ≤ TimerWidth.bits16.maxw ∧ oneMs.tmr = oneMs.rld
      ∧ 48001 = oneMs.ps.toNat * oneMs.qs.toNat * (TimerWidth.bits16.maxw - oneMs.rld.toNat + 1) := by decide

theorem witness_encoding :
    (Instr.query 0 (.global .irq)).wellFormed = true ∧ (Instr.query 31 (.source .pst)).wellFormed = true
      ∧ decodeWord 0xF00000FF00000000#64 = .ok (.port 0xFF) := by decide

theorem witness_ReservedValuesSpellNoWord :
    opField 0xB000000000000000#64 = 0xB#4 ∧ routePort 0x9008000000000000#64 ≠ .command
      ∧ opField 0x1030000100001000#64 = 0x1#4 ∧ 3 ≤ (unitField 0x1030000100001000#64).toNat
      ∧ opField 0x8000000F00000000#64 = 0x8#4 ∧ (sel8Field 0x8000000F00000000#64).toNat = 0x0F
      ∧ opField 0x8000001700000000#64 = 0x8#4 ∧ 0x17 ≤ (sel8Field 0x8000001700000000#64).toNat := by decide

/-- For the statements about every word: on each kind of port a word that is consumed, legal and not. -/
theorem witness_words :
    consume .command 0#64 State.reset = .next (State.reset.respond .ok 0)
      ∧ decodeOn .command 0#64 = .ok .nop ∧ Instr.nop.legal State.reset.params = true
      ∧ consume .command 0x6480000000000000#64 (State.reset.setFlag 9 true) = .next ((State.reset.setFlag 9 true).respond .ok 1)
      ∧ (⟨.ok, 1⟩ : Response).data ≠ 0
      ∧ consume .vector 0#64 State.reset = .next (State.reset.respond .illegal 0)
      ∧ decodeOn .vector 0#64 = .error .wrongPort
      ∧ consume .stimulus 0xEF80000000000000#64 State.reset = .next State.reset.refuse
      ∧ decodeOn .stimulus 0xEF80000000000000#64 = .ok (.raise 31) ∧ (Instr.raise 31).legal State.reset.params = false
      ∧ consume .stimulus 0xE980000000000000#64 State.reset = .next (State.reset.setFlag 19 true)
      ∧ decodeOn .stimulus 0xE980000000000000#64 = .ok (.raise 19) ∧ (Instr.raise 19).legal State.reset.params = true :=
  ⟨rfl, by decide, by decide, rfl, by decide, rfl, by decide, rfl, by decide, by decide, rfl, by decide, by decide⟩

/-- The hypotheses of the frame's clauses, on `nop`. -/
theorem witness_WordsReachOnlyWhatTheyName :
    exec .nop State.reset = .next (State.reset.respond .ok 0) ∧ Instr.nop.carrier ≠ .stimulus
      ∧ (∀ id cb, Instr.nop ≠ .rege id cb) ∧ (∀ v, Instr.nop ≠ .port v) ∧ (∀ l, Instr.nop ≠ .disp l ∧ Instr.nop ≠ .cbret l)
      ∧ (∀ n, Instr.nop ≠ .clk n) ∧ namedSource .nop ≠ some 0 ∧ namedSource (.clrf 0) ≠ some 31
      ∧ (∀ j l, Instr.nop ≠ .setpri j l) := by
  refine ⟨rfl, by decide, ?_⟩
  simp [namedSource]

theorem witness_WordsNotAnsweredOkChangeNothing :
    consume .vector 0#64 State.reset = .next (State.reset.respond .illegal 0)
      ∧ (State.reset.respond .illegal 0).responses = State.reset.responses ++ [⟨.illegal, 0⟩]
      ∧ (⟨.illegal, 0⟩ : Response).status ≠ .ok := ⟨rfl, rfl, by decide⟩

theorem witness_DisableIsIdempotentAndReenableResumes :
    let s := State.reset.setReg 0 oneMs
    s.params.present 0 = true ∧ exec (.seten 0 false) s = .next ((s.setEnable 0 false).respond .ok 0)
      ∧ (s.reg 0).used = true ∧ (s.reg 0).ie = true ∧ (State.reset.reg 0).ie = false
      ∧ (State.reset.reg 0).used = (State.reset.reg 0).ie := ⟨by decide, rfl, by decide, by decide, by decide, by decide⟩

/-- A run of two steps after a disable, a NOP and the SETEN that enables the source again. -/
theorem witness_DisableIsIdempotentAndReenableResumes_run :
    let s : State := { State.reset.setReg 0 oneMs with inbox := [(.command, 0#64), (.command, encode (.seten 0 true))] }
    let t : State := (s.setEnable 0 false).respond .ok 0
    s.params.present 0 = true ∧ exec (.seten 0 false) s = .next t ∧ (t.reg 0).ie = false ∧ step t = .next (stepped t) ∧ ((stepped t).reg 0).ie = false
      ∧ step (stepped t) = .next (stepped (stepped t)) ∧ ((stepped (stepped t)).reg 0).ie = true
      ∧ ¬ Registers 0 t (stepped t) ∧ ¬ Registers 0 (stepped t) (stepped (stepped t)) := by
  refine ⟨by decide, rfl, by decide, rfl, by decide, rfl, by decide, ?_, ?_⟩ <;> rintro ⟨p, w, i, d, hm, hw, hd, hr, -⟩ <;> cases hm <;> cases hw
    <;> cases hd <;> cases hr

theorem witness_DisableThenRegisterReplacesTheCallback :
    (0xB0 : Handle) ≠ 0
      ∧ exec (.seten 0 false) (State.reset.setReg 0 oneMs)
          = .next (((State.reset.setReg 0 oneMs).setEnable 0 false).respond .ok 0)
      ∧ State.reset.params.timer? 0 = some timer0 ∧ timer0.extok = true
      ∧ calculate State.reset.params.fpb timer0 (.time .ms) (1 : BitVec 16).toNat = some ⟨1, 1, 48000, 0, 0x447F⟩
      ∧ calculate State.reset.params.fpb timer0 .edge (1 : BitVec 16).toNat = some ⟨1, 1, 1, 0, 0xFFFE⟩
      ∧ State.reset.params.slot 9 = .event ∧ State.reset.params.slot 13 = .portChange :=
  ⟨by decide, rfl, by decide, by decide, by decide, by decide, by decide, by decide⟩

/-- A state with a word on each port, all three scheduled, the first of them the command port's. -/
def loaded : State :=
  { State.reset with
    inbox := [(.command, 0#64), (.vector, 0x9008000000000000#64), (.stimulus, 0xE480000000000000#64)]
    sched := [.word .command, .word .vector, .word .stimulus] }

theorem witness_StepRunsTheDecodedWord :
    loaded.refused = false ∧ loaded.sched = .word .command :: [.word .vector, .word .stimulus]
      ∧ headOf .command loaded.inbox = some 0#64 ∧ decodeOn .command 0#64 = .ok .nop ∧ loaded.held = false
      ∧ headOf .vector loaded.inbox = some 0x9008000000000000#64
      ∧ decodeOn .vector 0x9008000000000000#64 = .ok (.disp .high) := by decide

theorem witness_OfferedWordRunsInTheNextStep :
    State.reset.refused = false ∧ decodeTableWord 64 0x9008000000000000 = some (.disp .high)
      ∧ decodeTableWord 64 0 = some .nop ∧ State.reset.held = false
      ∧ (Instr.disp .high).carrier ≠ .command ∧ Instr.nop.carrier = .command := by decide

theorem witness_HeldWordStaysAtItsPort :
    let s : State := { loaded with fsmLow := .scan 32 }
    s.refused = false ∧ s.sched = .word .command :: [.word .vector, .word .stimulus] ∧ s.held = true := by decide

theorem witness_InvalidWordIsAnsweredIllegalOrRefused :
    let s : State :=
      { loaded with inbox := [(.command, 0xB000000000000000#64), (.stimulus, 0#64)], sched := [.word .command] }
    s.refused = false ∧ s.sched = .word .command :: [] ∧ headOf .command s.inbox = some 0xB000000000000000#64
      ∧ decodeOn .command 0xB000000000000000#64 = .error .reservedOpcode ∧ s.held = false
      ∧ headOf .stimulus s.inbox = some 0#64 ∧ decodeOn .stimulus 0#64 = .error .wrongPort := by decide

theorem witness_ScannerMovesExactlyWhereItIsEnabled :
    let s : State := { State.reset with fsmLow := .scan 32, sched := [.svc .low] }
    let t : State := { s with fsmHigh := .wait 0 }
    s.refused = false ∧ s.sched = .svc .low :: [] ∧ (∃ i, s.fsm .low = .scan i) ∧ s.fsmHigh = .idle
      ∧ (∀ i, State.reset.fsm .high ≠ .scan i) ∧ t.fsmHigh ≠ .idle := by
  refine ⟨rfl, rfl, ⟨32, rfl⟩, rfl, by decide, by decide⟩

theorem witness_NoStepOnceRefused : State.reset.refuse.refused = true := rfl

/-- One state for each case of an unscheduled step, LOW scanning under a waiting HIGH for the third. -/
theorem witness_UnscheduledStepIsEagerAndNeverHolds :
    let s : State := { loaded with sched := [] }
    let low : State := { s with fsmLow := .scan 32 }
    eagerMove s = some (.word .command) ∧ s.refused = false ∧ s.sched = []
      ∧ (∃ i, ({ low with fsmHigh := .scan 0 } : State).fsmHigh = .scan i)
      ∧ low.fsmHigh = .idle ∧ (∃ i, low.fsmLow = .scan i)
      ∧ (∀ i, ({ low with fsmHigh := .wait 0 } : State).fsmHigh ≠ .scan i) ∧ ({ low with fsmHigh := .wait 0 } : State).fsmHigh ≠ .idle
      ∧ (∀ i, s.fsmHigh ≠ .scan i) ∧ (∀ i, s.fsmLow ≠ .scan i)
      ∧ s.inbox = (.command, 0#64) :: s.inbox.tail ∧ decodeOn .command 0#64 = .ok .nop
      ∧ decodeOn .command 0xB000000000000000#64 = .error .reservedOpcode ∧ decodeOn .stimulus 0#64 = .error .wrongPort
      ∧ State.reset.inbox = [] ∧ State.reset.nocb = false ∧ ({ State.reset with nocb := true } : State).nocb = true := by
  refine ⟨by decide, rfl, rfl, ⟨0, rfl⟩, rfl, ⟨32, rfl⟩, by decide, by decide, by decide, by decide, rfl, by decide, by decide,
    by decide, rfl, rfl, rfl⟩

theorem witness_ResetMeetsTheInvariant : Params.rc1.wf = true ∧ small.wf = true := by decide

theorem witness_HighDispatchRunsBeforeLowContinues :
    let s : State := { State.reset with fsmHigh := .scan 32, fsmLow := .scan 5 }
    s.fsmHigh ≠ .idle ∧ step s = .next (s.endDispatch .high) := ⟨by decide, rfl⟩

theorem witness_StepNeverTakesBack :
    let s : State := { State.reset.setReg 0 oneMs with fsmHigh := .scan 32, nocb := true }
    step s = .next (s.endDispatch .high) ∧ s.nocb = true ∧ (s.reg 0).ton = true := ⟨rfl, by decide, by decide⟩

/-- A running TIMER source, a waiting HIGH level and the FIRE it waits for. -/
def busy : State :=
  { State.reset.setReg 0 oneMs with fsmHigh := .wait 0, events := [.fire .high 0 0x1000], inbox := [(.stimulus, 0xC000000000000001#64)] }

theorem witness_EveryStepKeepsTheInvariant : busy.Inv ∧ step busy = .next (stepped busy) := by
  refine ⟨⟨by decide, fun id => ?_, ⟨by decide, by decide⟩, trivial, ?_⟩, rfl⟩
  · have h : busy.reg id = if 0 = id then oneMs else State.reset.reg id := State.reg_setReg ..
    rw [h]
    split
    · subst id
      exact ⟨rfl, show oneMs.ChannelInRange timer0 by decide⟩
    · have e : State.reset.reg id = SourceRegs.reset .high := State.initial_reg ..
      rw [e]
      refine ⟨rfl, ?_⟩
      cases busy.params.slot id with
      | absent => rfl
      | event => decide
      | portChange => decide
      | timer t => simp [SourceRegs.ChannelInRange, SourceRegs.reset]
  · intro e he
    simp only [busy, List.mem_singleton] at he
    subst he
    exact ⟨by decide, by decide⟩

theorem witness_EveryStepKeepsTheEventStreamInOrder : busy.StreamInv ∧ step busy = .next (stepped busy) :=
  ⟨⟨rfl, trivial⟩, rfl⟩

end Sys2Proof.Tests
end

section
/-! PROOFS. The family `10_state.md`: the reset state (R60), the IRQ outputs (R53), and one response for each command or vector
word (R54). -/

namespace Sys2Proof.Machine

open Sys2Proof.Claims

/-! ## The reset state -/

theorem wf_rc1 : Params.rc1.wf = true := by decide

theorem reset_eq_resetWith_rc1 : State.reset = State.resetWith Params.rc1 := by
  simp [State.reset, State.resetWith, wf_rc1]

@[simp] theorem State.resetWith_reg (p : Params) (id : SourceId) :
    (State.resetWith p).reg id = SourceRegs.reset p.ipReset := State.initial_reg ..

theorem State.resetWith_refused (p : Params) : (State.resetWith p).refused = !p.wf := rfl

/-! ## The IRQ outputs -/

/-- The output of a level is 1 exactly when the scanner would service some identity at that level. -/
theorem irq_iff {s : State} {l : Level} : s.irq l = true ↔ ∃ id, s.serviceable l id = true := by
  simp [State.irq]

/-- No source is requesting after reset: every flag is 0. -/
theorem resetWith_not_serviceable (p : Params) (l : Level) (id : SourceId) :
    (State.resetWith p).serviceable l id = false := by
  rw [← Bool.not_eq_true, serviceable_iff]
  simp [SourceRegs.reset]

/-- The datum of QUERY 0x16: the bit of HIGH above the bit of LOW. -/
theorem readGlobal_irq_toNat (s : State) :
    (s.readGlobal .irq).toNat = 2 * (s.irq .high).toNat + (s.irq .low).toNat := by
  simp only [State.readGlobal]
  cases s.irq .high <;> cases s.irq .low <;> decide

/-- A QUERY of a global field with SRC 0 reads it and changes nothing. -/
theorem exec_query_global (s : State) (g : GlobalField) : Answers (.query 0 (.global g)) s .ok (s.readGlobal g) s := rfl

/-! ## What one word answers (`10_state.md` R54) -/

/-- A command or vector word gives one response, with a datum only in the OK answer of TSTF or QUERY. -/
theorem Effect.one_response {s t : State} {i : Instr} (h : Effect s i t) (hp : i.carrier ≠ .stimulus) :
    ∃ r, t.responses = s.responses ++ [r] ∧ (r.data ≠ 0 → r.status = .ok ∧ answersData i = true) := by
  cases h with
  | tstf | query => exact ⟨_, rfl, fun _ => ⟨rfl, rfl⟩⟩
  | nop | illegal | dispRejected | cbretRejected | unregistered | regt | regc | rege | regePortChange | seten | setpri
  | clrf => exact ⟨_, rfl, fun h => absurd rfl h⟩
  | disp | cbret => exact ⟨⟨.ok, 0⟩, by simp, fun h => absurd rfl h⟩
  | refuse port => exact absurd port hp
  | clk | xedge | raise | port | portFlag => exact absurd rfl hp

/-- A stimulus word gives no response. -/
theorem Effect.no_response {s t : State} {i : Instr} (h : Effect s i t) (hp : i.carrier = .stimulus) :
    t.responses = s.responses := by
  cases h with
  | refuse | port => rfl
  | clk => exact State.clockCycles_responses ..
  | xedge => exact State.setReg_responses ..
  | raise | portFlag => exact State.setFlag_responses ..
  | illegal port => exact absurd hp port
  | unregistered _ word => obtain ⟨_, _, _, _, rfl⟩ | ⟨_, _, _, rfl⟩ | ⟨_, _, rfl⟩ := word <;> cases hp
  | nop | dispRejected | cbretRejected | regt | regc | rege | regePortChange | seten | setpri | tstf | clrf | query | disp
  | cbret => cases hp

/-- A word decoded on a port is one that port carries. -/
theorem carrier_of_decodeOn {p : Port} {w : Word} {i : Instr} (h : decodeOn p w = .ok i) : i.carrier = p := by
  unfold decodeOn at h
  split at h
  next hp => exact (routePort_of_decodeWord h).symm.trans hp
  next => cases h

/-! ## No word reads the responses given before -/

/-- `s` with the responses `earlier` given before all of its own. -/
def State.withEarlier (earlier : List Response) (s : State) : State :=
  { s with responses := earlier ++ s.responses }

/-- The next state of a result changed by `f`; a stop stays the same stop. -/
def mapNext (f : State → State) : Result → Result
  | .next s => .next (f s)
  | .fault r => .fault r
  | .refused r => .refused r

@[simp] theorem mapNext_next (f : State → State) (s : State) : mapNext f (.next s) = .next (f s) := rfl

section

variable (earlier : List Response) (s : State)

@[simp] theorem State.withEarlier_params : (s.withEarlier earlier).params = s.params := rfl
@[simp] theorem State.withEarlier_reg (id : SourceId) : (s.withEarlier earlier).reg id = s.reg id := rfl
@[simp] theorem State.withEarlier_portv : (s.withEarlier earlier).portv = s.portv := rfl
@[simp] theorem State.withEarlier_readField (id : SourceId) (sel : Selector) :
    (s.withEarlier earlier).readField id sel = s.readField id sel := by cases sel <;> rfl
@[simp] theorem State.withEarlier_acceptsDispatch (l : Level) :
    (s.withEarlier earlier).acceptsDispatch l = s.acceptsDispatch l := by cases l <;> rfl
@[simp] theorem State.withEarlier_runningCallback (l : Level) :
    (s.withEarlier earlier).runningCallback l = s.runningCallback l := by cases l <;> rfl
@[simp] theorem State.withEarlier_channelAfter (cs : ClockSource) (n : Nat) :
    (s.withEarlier earlier).channelAfter cs n = s.channelAfter cs n := rfl

/-! The effects of the words, with the earlier responses taken outside. -/

@[simp] theorem State.respond_withEarlier (st : Status) (d : BitVec 64) :
    (s.withEarlier earlier).respond st d = (s.respond st d).withEarlier earlier := by
  simp [State.withEarlier, State.respond]
@[simp] theorem State.setFsm_withEarlier (l : Level) (f : Fsm) :
    (s.withEarlier earlier).setFsm l f = (s.setFsm l f).withEarlier earlier := by cases l <;> rfl
theorem State.clockCycles_withEarlier (n : Nat) :
    (s.withEarlier earlier).clockCycles n = (s.clockCycles n).withEarlier earlier := by
  simp only [State.clockCycles, State.withEarlier_channelAfter]
  rfl
theorem State.externalEdge_withEarlier (id : SourceId) :
    (s.withEarlier earlier).externalEdge id = (s.externalEdge id).withEarlier earlier := by
  simp only [State.externalEdge, State.withEarlier_channelAfter]
  rfl
theorem State.installEvent_withEarlier (id : SourceId) (cb : Handle) :
    (s.withEarlier earlier).installEvent id cb = (s.installEvent id cb).withEarlier earlier := by
  simp only [State.installEvent, State.withEarlier_params]
  cases s.params.slot id <;> rfl

/-- A registration makes the same checks in the same order. -/
theorem State.register_withEarlier (id : SourceId) (cb : Handle) (success : Option State) :
    (s.withEarlier earlier).register id cb (success.map (State.withEarlier earlier))
      = (s.register id cb success).withEarlier earlier := by
  simp only [State.register, State.withEarlier_reg, State.respond_withEarlier]
  split_ifs
  · rfl
  · rfl
  · cases success <;> simp

/-! The guards of the words let through, and answer, the same. -/

theorem onPresent_withEarlier (id : SourceId) {t u : State} (h : u = t.withEarlier earlier) :
    onPresent (s.withEarlier earlier) id u = mapNext (State.withEarlier earlier) (onPresent s id t) := by
  simp only [onPresent, illegalWord, State.withEarlier_params, State.respond_withEarlier, h]
  split_ifs <;> rfl

theorem onTimer_withEarlier (id : SourceId) {f g : TimerParams → State} (h : ∀ t, g t = (f t).withEarlier earlier) :
    onTimer (s.withEarlier earlier) id g = mapNext (State.withEarlier earlier) (onTimer s id f) := by
  simp only [onTimer, illegalWord, State.withEarlier_params, State.respond_withEarlier, h]
  cases s.params.timer? id <;> rfl

theorem onExtTimer_withEarlier (id : SourceId) {f g : TimerParams → State} (h : ∀ t, g t = (f t).withEarlier earlier) :
    onExtTimer (s.withEarlier earlier) id g = mapNext (State.withEarlier earlier) (onExtTimer s id f) := by
  simp only [onExtTimer, illegalWord, State.withEarlier_params, State.respond_withEarlier, h]
  cases s.params.timer? id with
  | none => rfl
  | some t => cases ht : t.extok <;> simp [ht]

theorem onEvent_withEarlier (id : SourceId) {t u : State} (h : u = t.withEarlier earlier) :
    onEvent (s.withEarlier earlier) id u = mapNext (State.withEarlier earlier) (onEvent s id t) := by
  simp only [onEvent, illegalWord, State.withEarlier_params, State.respond_withEarlier, h]
  cases s.params.slot id <;> rfl

/-- The success effect of a timer registration, whatever the calculator gives. -/
theorem registerTimer_withEarlier (id : SourceId) (w : TimerWidth) (cs : ClockSource) (cb : Handle) (c : Option CalcResult) :
    (s.withEarlier earlier).register id cb (c.map ((s.withEarlier earlier).installTimer id w cs cb))
      = (s.register id cb (c.map (s.installTimer id w cs cb))).withEarlier earlier := by
  rw [← State.register_withEarlier, Option.map_map]
  rfl

/-- Every word does the same, and answers the same, whatever the responses given before. -/
theorem exec_withEarlier (i : Instr) :
    exec i (s.withEarlier earlier) = mapNext (State.withEarlier earlier) (exec i s) := by
  cases i with
  | nop => simp [exec, execNop]
  | regt id u d cb => exact onTimer_withEarlier _ _ _ fun t => registerTimer_withEarlier ..
  | regc id n cb => exact onExtTimer_withEarlier _ _ _ fun t => registerTimer_withEarlier ..
  | rege id cb =>
    refine onEvent_withEarlier _ _ _ ?_
    rw [State.installEvent_withEarlier]
    exact State.register_withEarlier _ _ id cb (some _)
  | seten id v => exact onPresent_withEarlier _ _ _ (State.respond_withEarlier _ (s.setEnable id v) ..)
  | setpri id l => exact onPresent_withEarlier _ _ _ (State.respond_withEarlier _ (s.setPriority id l) ..)
  | tstf id => exact onPresent_withEarlier _ _ _ (State.respond_withEarlier ..)
  | clrf id => exact onPresent_withEarlier _ _ _ (State.respond_withEarlier _ (s.setFlag id false) ..)
  | query id sel =>
    simp only [exec, execQuery, illegalWord, State.withEarlier_readField, State.respond_withEarlier]
    cases s.readField id sel <;> rfl
  | disp l =>
    simp only [exec, execDisp, State.withEarlier_acceptsDispatch, State.enterDispatch, State.setFsm_withEarlier,
      State.respond_withEarlier]
    split_ifs <;> rfl
  | cbret l =>
    simp only [exec, execCbret, State.withEarlier_runningCallback, State.resumeAfter, State.setFsm_withEarlier,
      State.respond_withEarlier]
    cases s.runningCallback l <;> rfl
  | clk n => simp only [exec, execClk, mapNext_next, State.clockCycles_withEarlier]
  | xedge id =>
    simp only [exec, execXedge, State.withEarlier_params, State.externalEdge_withEarlier]
    cases s.params.timer? id <;> rfl
  | raise id =>
    cases hp : s.params.present id <;> simp only [exec, execRaise, State.withEarlier_params, hp] <;> rfl
  | port v =>
    cases hr : s.params.portChange? with
    | none => simp only [exec, execPort, State.withEarlier_params, hr]; rfl
    | some rb =>
      cases hc : groupChanged s.portv v <;>
        simp only [exec, execPort, State.withEarlier_params, State.withEarlier_portv, hr, hc] <;> rfl

/-- The consumption of any 64-bit word, one that spells no valid word included. -/
theorem consume_withEarlier (p : Port) (w : Word) :
    consume p w (s.withEarlier earlier) = mapNext (State.withEarlier earlier) (consume p w s) := by
  unfold consume
  cases decodeOn p w with
  | ok i => exact exec_withEarlier ..
  | error e =>
    cases p with
    | command | vector => simp [invalidWord, illegalWord]
    | stimulus => rfl

end

end Sys2Proof.Machine

namespace Sys2Proof.Proofs

open Sys2Proof.Machine Sys2Proof.Claims

/-- Settles O41: the responses are read off the effect of the word, or off the answer to a word that spells none; and
consuming commutes with putting earlier responses in front. -/
theorem oneResponseForEachCommandAndVectorWord : Obligations.OneResponseForEachCommandAndVectorWord := by
  intro p w s t h
  have earlierUnread : ∀ earlier, consume p w (s.withEarlier earlier) = .next (t.withEarlier earlier) := fun earlier => by
    rw [consume_withEarlier, h, mapNext_next]
  obtain ⟨i, hi, e⟩ | ⟨_, -, ⟨hq, e⟩ | ⟨hq, e⟩⟩ := consume_cases p w s <;> rw [e] at h
  · have hc := carrier_of_decodeOn hi
    refine ⟨fun hp => ?_, fun hp => (effect_of_exec h).no_response (hc.trans hp), earlierUnread⟩
    obtain ⟨r, hr, hd⟩ := (effect_of_exec h).one_response (hc ▸ hp)
    exact ⟨r, hr, fun hne => ⟨(hd hne).1, i, hi, (hd hne).2⟩⟩
  · cases h
    exact ⟨fun _ => ⟨_, rfl, fun hne => absurd rfl hne⟩, fun hp => absurd hp hq, earlierUnread⟩
  · cases h
    exact ⟨fun hp => absurd hq hp, fun _ => rfl, earlierUnread⟩

/-- Settles O1, field by field; the record RC1 is well formed, so its block starts unrefused. -/
theorem resetLeavesTheTableOfResetValues : Obligations.ResetLeavesTheTableOfResetValues := by
  refine ⟨reset_eq_resetWith_rc1, fun p => ⟨fun id => State.resetWith_reg p id, rfl, rfl, rfl, rfl, rfl, rfl, rfl, fun hp => ?_⟩⟩
  simp [State.resetWith_refused, hp]

/-- Settles O2: the outputs are the scanner's test over all identities, which no identity passes after reset. -/
theorem irqIsTheOrOfTheRequestingSources : Obligations.IrqIsTheOrOfTheRequestingSources := by
  refine ⟨fun s l => ?_, fun p l => ?_, fun s => ⟨_, exec_query_global s .irq, readGlobal_irq_toNat s⟩⟩
  · simp only [irq_iff, serviceable_iff]
  · rw [← Bool.not_eq_true, irq_iff]
    simp [resetWith_not_serviceable]

end Sys2Proof.Proofs
end

section
/-! PROOFS. The family `20_memory.md`: the frame of every word (R71, R76; `42_registration.md` R156), one lemma for each group of
fields, read off the effect of the word. -/

namespace Sys2Proof.Machine

open Sys2Proof.Claims

/-! ## A write to one source -/

theorem reg_of_src_set {s t : State} {id j : SourceId} {r : SourceRegs} (ht : t.src = s.src.set id r) (hj : j ≠ id) :
    t.reg j = s.reg j := by
  rw [State.reg, ht]
  exact State.reg_setReg_ne s r hj

/-- A write that keeps the priority of the source it writes keeps every priority. -/
theorem ip_of_src_set {s t : State} {id : SourceId} {r : SourceRegs} (ht : t.src = s.src.set id r)
    (hr : r.ip = (s.reg id).ip) (j : SourceId) : (t.reg j).ip = (s.reg j).ip := by
  by_cases hj : j = id
  · have written : t.reg j = r := by rw [hj, State.reg, ht]; exact State.reg_setReg_self s id r
    rw [written, hr, hj]
  · rw [reg_of_src_set ht hj]

/-! ## What a word leaves unchanged -/

section

variable {i : Instr} {s t : State}

/-- No word reaches the record, the schedule or the words waiting. -/
theorem Effect.sameInputs (h : Effect s i t) : SameInputs s t := by
  cases h with
  | clk | disp | cbret => simp [SameInputs]
  | _ => exact ⟨rfl, rfl, rfl⟩

/-- Only the scanner writes the change mask, the fault bit and the event stream. -/
theorem Effect.keeps_scanner_globals (h : Effect s i t) : t.chg = s.chg ∧ t.nocb = s.nocb ∧ t.events = s.events := by
  cases h with
  | clk | disp | cbret => simp
  | _ => exact ⟨rfl, rfl, rfl⟩

theorem Effect.refused_of_carrier_ne (h : Effect s i t) (hp : i.carrier ≠ .stimulus) : t.refused = s.refused := by
  cases h with
  | clk | disp | cbret => simp
  | refuse port => exact absurd port hp
  | _ => rfl

theorem Effect.prev_of_ne_rege (h : Effect s i t) (hi : ∀ id cb, i ≠ .rege id cb) : t.prev = s.prev := by
  cases h with
  | clk | disp | cbret => simp
  | regePortChange => exact absurd rfl (hi _ _)
  | _ => rfl

theorem Effect.portv_of_ne_port (h : Effect s i t) (hi : ∀ v, i ≠ .port v) : t.portv = s.portv := by
  cases h with
  | clk | disp | cbret => simp
  | port | portFlag => exact absurd rfl (hi _)
  | _ => rfl

theorem Effect.fsms_of_ne_dispatch (h : Effect s i t) (hi : ∀ l, i ≠ .disp l ∧ i ≠ .cbret l) :
    t.fsmHigh = s.fsmHigh ∧ t.fsmLow = s.fsmLow := by
  cases h with
  | clk => simp
  | disp => exact absurd rfl (hi _).1
  | cbret => exact absurd rfl (hi _).2
  | _ => exact ⟨rfl, rfl⟩

/-- Of the words that are neither CLK nor PORT, each keeps every source but the one it names. -/
theorem Effect.reg_of_not_named (h : Effect s i t) (hclk : ∀ n, i ≠ .clk n) (hport : ∀ v, i ≠ .port v) {j : SourceId}
    (hj : namedSource i ≠ some j) : t.reg j = s.reg j := by
  have unnamed : ∀ {id}, namedSource i = some id → j ≠ id := fun hid e => hj (e ▸ hid)
  cases h with
  | clk => exact absurd rfl (hclk _)
  | port | portFlag => exact absurd rfl (hport _)
  | regt | regc | rege | regePortChange | seten | setpri | clrf | xedge | raise => exact reg_of_src_set rfl (unnamed rfl)
  | disp | cbret => simp
  | nop | illegal | refuse | dispRejected | cbretRejected | unregistered | tstf | query => rfl

/-- SETPRI alone writes a priority (`42_registration.md` R156). -/
theorem Effect.ip_of_ne_setpri (h : Effect s i t) (hi : ∀ id l, i ≠ .setpri id l) (j : SourceId) :
    (t.reg j).ip = (s.reg j).ip := by
  cases h with
  | setpri => exact absurd rfl (hi _ _)
  | xedge => exact ip_of_src_set rfl (State.channelAfter_ip ..) j
  -- `by rfl` waits until the first `rfl` has fixed the fields written.
  | regt | regc | rege | regePortChange | seten | clrf | raise | portFlag => exact ip_of_src_set rfl (by rfl) j
  | clk | disp | cbret => simp
  | nop | illegal | refuse | dispRejected | cbretRejected | unregistered | tstf | query | port => rfl

end

end Sys2Proof.Machine

namespace Sys2Proof.Proofs

open Sys2Proof.Machine Sys2Proof.Claims

/-- Settles O43: each clause is the frame of the effect of the word on one group of fields. -/
theorem wordsReachOnlyWhatTheyName : Obligations.WordsReachOnlyWhatTheyName := by
  intro i s t h
  have effect := effect_of_exec h
  obtain ⟨hchg, hnocb, hevents⟩ := effect.keeps_scanner_globals
  exact ⟨effect.sameInputs, effect.refused_of_carrier_ne, hchg, hnocb, hevents, effect.prev_of_ne_rege,
    effect.portv_of_ne_port, effect.fsms_of_ne_dispatch, fun hclk hport _ => effect.reg_of_not_named hclk hport,
    effect.ip_of_ne_setpri⟩

end Sys2Proof.Proofs
end

section
/-! PROOFS. The family `41_calculator.md`: the range of a result (R120, R124) and the order of its choice (R136). -/

namespace Sys2Proof

/-- In a slot that meets R11 every product of dividers is at least 1. -/
theorem TimerParams.one_le_product {t : TimerParams} (h : t.meetsR11 = true) {p q : Nat} (hp : p ∈ t.pset) (hq : q ∈ t.qset) :
    1 ≤ p * q := by
  obtain ⟨-, -, p_pos, q_pos, -⟩ := TimerParams.meetsR11_iff.1 h
  exact Nat.mul_pos (p_pos p hp) (q_pos q hq)

/-- The first candidate has product 1. -/
theorem TimerParams.product_head_le_one {t : TimerParams} (h : t.meetsR11 = true) {c : Nat × Nat} {bs : List (Nat × Nat)}
    (hc : t.pairs = c :: bs) : c.1 * c.2 ≤ 1 := by
  obtain ⟨one_p, one_q, -⟩ := TimerParams.meetsR11_iff.1 h
  have sorted : (c :: bs).Pairwise pairLe := hc ▸ t.pairs_sorted
  have offered : ((1, 1) : Nat × Nat) ∈ c :: bs := hc ▸ TimerParams.mem_pairs.2 ⟨one_p, one_q⟩
  rcases List.mem_cons.1 offered with e | later
  · simp [← e]
  · have := (List.pairwise_cons.1 sorted).1 _ later
    simp only [pairLe] at this
    omega

/-- Two neighbouring candidates of a slot that meets R11. -/
theorem TimerParams.product_next_le {t : TimerParams} (h : t.meetsR11 = true) {a c : Nat × Nat} {as bs : List (Nat × Nat)}
    (hc : t.pairs = as ++ a :: c :: bs) : c.1 * c.2 ≤ t.width.maxw * (a.1 * a.2) := by
  obtain ⟨-, -, -, -, steps⟩ := TimerParams.meetsR11_iff.1 h
  rw [hc, List.map_append] at steps
  exact stepsAtMost_neighbours steps

/-- An offered pair that comes strictly before the candidate `c` stands to the left of it in the list. -/
theorem TimerParams.mem_left_of_before {t : TimerParams} {a c : Nat × Nat} {as bs : List (Nat × Nat)} (ha : a ∈ t.pairs)
    (hc : t.pairs = as ++ c :: bs) (before : ¬ pairLe c a) : a ∈ as := by
  have sorted : (as ++ c :: bs).Pairwise pairLe := hc ▸ t.pairs_sorted
  rcases List.mem_append.1 (hc ▸ ha) with left | right
  · exact left
  · rcases List.mem_cons.1 right with rfl | later
    · exact absurd (.inr ⟨rfl, le_rfl⟩) before
    · exact absurd ((List.pairwise_cons.1 (List.pairwise_append.1 sorted).2.1).1 a later) before

namespace Machine

/-- The target is below `2^48`, whatever the unit (`41_calculator.md` R123). -/
theorem targetCycles_lt {fpb d : Nat} (m : CalcMode) (hf : fpb < 2 ^ 32) (hd : d < 2 ^ 16) : targetCycles fpb m d < 2 ^ 48 := by
  have perUnit : cyclesPerUnit fpb m < 2 ^ 32 := by
    cases m with
    | time u => exact (Nat.div_le_self ..).trans_lt hf
    | edge => simp [cyclesPerUnit]
  calc targetCycles fpb m d < 2 ^ 32 * 2 ^ 16 := Nat.mul_lt_mul'' perUnit hd
    _ = 2 ^ 48 := by norm_num

theorem softMultiplier_pred_le (t : TimerParams) (target : Nat) : softMultiplier t target - 1 ≤ target := by
  rw [softMultiplier, Nat.add_sub_cancel]
  exact Nat.div_le_self _ _

/-- Some pair fits with the multiplier of R128: the one with the largest divider does (`41_calculator.md` R129). -/
theorem exists_choosePair {t : TimerParams} (h : t.meetsR11 = true) (target : Nat) :
    ∃ c, choosePair t target (softMultiplier t target) = some c := by
  obtain ⟨p, hp, q, hq, e⟩ := dmax_mem h
  have fits : target / (p * q * softMultiplier t target) < t.width.maxw + 1 := by
    refine Nat.div_lt_of_lt_mul ?_
    rw [e, Nat.mul_right_comm]
    exact lt_dmax_softMultiplier h target
  refine Option.isSome_iff_exists.1 (List.find?_isSome.2 ⟨(p, q), TimerParams.mem_pairs.2 ⟨hp, hq⟩, ?_⟩)
  simpa using Nat.le_of_lt_succ fits

/-- With no software counting, the chosen pair divides the target by no more than the target: it is the first candidate, or
R11 keeps it within reach of the pair before it, which did not fit. -/
theorem product_le_of_choosePair_one {t : TimerParams} (h : t.meetsR11 = true) {target : Nat} (ht : target ≠ 0) {c : Nat × Nat}
    (hc : choosePair t target 1 = some c) : c.1 * c.2 ≤ target := by
  obtain ⟨-, -, -, as, bs, split, tooBig⟩ := choosePair_eq_some hc
  rcases List.eq_nil_or_concat as with rfl | ⟨as', a, rfl⟩
  · have := TimerParams.product_head_le_one h split
    omega
  · have count : t.width.maxw < target / (a.1 * a.2) := by simpa using tooBig a (by simp)
    calc c.1 * c.2 ≤ t.width.maxw * (a.1 * a.2) := TimerParams.product_next_le h (as := as') (bs := bs) (by simpa using split)
      _ ≤ target / (a.1 * a.2) * (a.1 * a.2) := Nat.mul_le_mul_right _ count.le
      _ ≤ target := Nat.div_mul_le_self ..

/-- With software counting, every divider fits into the target: the multiplier is at most twice what the largest divider and
the counter leave over. -/
theorem product_mul_softMultiplier_le {t : TimerParams} {target p q : Nat} (hp : p ∈ t.pset) (hq : q ∈ t.qset)
    (hk : 1 < softMultiplier t target) : p * q * softMultiplier t target ≤ target := by
  have double : softMultiplier t target ≤ (t.width.maxw + 1) * (softMultiplier t target - 1) :=
    calc softMultiplier t target ≤ 2 * (softMultiplier t target - 1) := by omega
      _ ≤ _ := Nat.mul_le_mul_right _ (Nat.succ_le_succ t.width.maxw_pos)
  calc p * q * softMultiplier t target ≤ dmax t * ((t.width.maxw + 1) * (softMultiplier t target - 1)) :=
        Nat.mul_le_mul (le_dmax hp hq) double
    _ ≤ target := (Nat.mul_assoc ..).symm.trans_le (dmax_pred_softMultiplier_le t target)

/-- The count of the chosen pair is not 0 (`41_calculator.md` R130 never finds INVALID where the target is not 0). -/
theorem count_choosePair_ne_zero {t : TimerParams} (h : t.meetsR11 = true) {target : Nat} (ht : target ≠ 0) {c : Nat × Nat}
    (hc : choosePair t target (softMultiplier t target) = some c) : target / (c.1 * c.2 * softMultiplier t target) ≠ 0 := by
  obtain ⟨hp, hq, -⟩ := choosePair_eq_some hc
  have reaches : c.1 * c.2 * softMultiplier t target ≤ target := by
    rcases Nat.lt_or_eq_of_le (softMultiplier_pos t target) with more | one
    · exact product_mul_softMultiplier_le hp hq more
    · rw [← one] at hc ⊢
      simpa using product_le_of_choosePair_one h ht hc
  have divisor_pos := Nat.mul_pos (TimerParams.one_le_product h hp hq) (softMultiplier_pos t target)
  exact (Nat.div_pos reaches divisor_pos).ne'

/-- In a slot that meets R11 only a zero target is INVALID (`41_calculator.md` R124). -/
theorem calculate_eq_none_iff {fpb : Nat} {t : TimerParams} {m : CalcMode} {d : Nat} (h : t.meetsR11 = true) :
    calculate fpb t m d = none ↔ targetCycles fpb m d = 0 := by
  constructor
  · intro invalid
    by_contra ht
    obtain ⟨c, hc⟩ := exists_choosePair h (targetCycles fpb m d)
    simp [calculate, settle, ht, hc, count_choosePair_ne_zero h ht hc] at invalid
  · intro ht
    simp [calculate, ht]

/-- The multiplier of a result is the one of R128. -/
theorem calculate_l_succ {fpb : Nat} {t : TimerParams} {m : CalcMode} {d : Nat} {c : CalcResult}
    (h : calculate fpb t m d = some c) : c.l + 1 = softMultiplier t (targetCycles fpb m d) := by
  obtain ⟨-, -, -, -, hl, -⟩ := calculate_eq_some h
  rw [hl, Nat.sub_add_cancel (softMultiplier_pos ..)]

/-- No offered pair fits with a multiplier smaller than that of R128 (`41_calculator.md` R136). -/
theorem maxw_lt_count_of_lt_softMultiplier {t : TimerParams} (h : t.meetsR11 = true) {target p q k : Nat} (hp : p ∈ t.pset)
    (hq : q ∈ t.qset) (k_pos : 1 ≤ k) (hk : k < softMultiplier t target) : t.width.maxw < target / (p * q * k) := by
  refine (Nat.le_div_iff_mul_le (Nat.mul_pos (TimerParams.one_le_product h hp hq) k_pos)).2 ?_
  calc (t.width.maxw + 1) * (p * q * k) ≤ (t.width.maxw + 1) * (dmax t * (softMultiplier t target - 1)) :=
        Nat.mul_le_mul_left _ (Nat.mul_le_mul (le_dmax hp hq) (Nat.le_sub_one_of_lt hk))
    _ = dmax t * (t.width.maxw + 1) * (softMultiplier t target - 1) := by ring
    _ ≤ target := dmax_pred_softMultiplier_le t target

/-- No offered pair before the chosen one fits (`41_calculator.md` R129, R136). -/
theorem maxw_lt_count_of_before {t : TimerParams} {target k : Nat} {a c : Nat × Nat} (hc : choosePair t target k = some c)
    (ha : a ∈ t.pairs) (before : ¬ pairLe c a) : t.width.maxw < target / (a.1 * a.2 * k) := by
  obtain ⟨-, -, -, as, bs, split, tooBig⟩ := choosePair_eq_some hc
  exact tooBig a (TimerParams.mem_left_of_before ha split before)

end Machine

end Sys2Proof

namespace Sys2Proof.Proofs

open Sys2Proof.Machine Sys2Proof.Claims

/-- Settles O26: the largest divider always fits with the multiplier of R128, and R11 keeps the count of the chosen pair
above 0. -/
theorem calculatorResultIsInRange : Obligations.CalculatorResultIsInRange := by
  intro fpb t m d h hf hd
  refine ⟨calculate_eq_none_iff h, fun c hc => ?_⟩
  obtain ⟨-, chosen, hn, n_ne, hl, hr⟩ := calculate_eq_some hc
  obtain ⟨hp, hq, fits, -⟩ := choosePair_eq_some chosen
  refine ⟨hp, hq, Nat.one_le_iff_ne_zero.2 n_ne, hn ▸ fits, hr, ?_⟩
  rw [hl]
  exact (softMultiplier_pred_le ..).trans_lt (targetCycles_lt m hf hd)

/-- Settles O29: the multiplier is the least with which the largest divider fits, and the pair is the first of the sorted
candidates that fits with it. -/
theorem calculatorChoosesTheLeastMultiplierAndDivider : Obligations.CalculatorChoosesTheLeastMultiplierAndDivider := by
  intro fpb t m d c h hc
  obtain ⟨-, chosen, -⟩ := calculate_eq_some hc
  rw [calculate_l_succ hc]
  refine ⟨fun p hp q hq k k_pos hk => maxw_lt_count_of_lt_softMultiplier h hp hq k_pos hk, fun p hp q hq before => ?_⟩
  refine maxw_lt_count_of_before chosen (a := (p, q)) (TimerParams.mem_pairs.2 ⟨hp, hq⟩) ?_
  simp only [pairLe]
  omega

end Sys2Proof.Proofs
end

section
/-! PROOFS. The family `43_control.md`: disabling a source, and what enabling it again (R171, R176) or registering it again (R177)
finds. -/

namespace Sys2Proof.Machine

open Sys2Proof.Claims

/-! ## SETEN on a present source -/

@[simp] theorem State.setReg_reg (s : State) (id : SourceId) : s.setReg id (s.reg id) = s := by
  simp [State.setReg, State.reg]

@[simp] theorem State.setReg_setReg (s : State) (id : SourceId) (r r' : SourceRegs) :
    (s.setReg id r).setReg id r' = s.setReg id r' := by
  simp [State.setReg]

/-- Setting the enable to what it is changes nothing. -/
theorem State.setEnable_eq_self {s : State} {id : SourceId} {v : Bool} (hie : (s.reg id).ie = v) (hused : (s.reg id).used = v) :
    s.setEnable id v = s :=
  calc s.setEnable id v = s.setReg id { s.reg id with ie := (s.reg id).ie, used := (s.reg id).used } := by
        rw [State.setEnable, hie, hused]
    _ = s := s.setReg_reg id

/-- Of two writes of the enable the later one stays. -/
theorem State.setEnable_setEnable (s : State) (id : SourceId) (v w : Bool) :
    (s.setEnable id v).setEnable id w = s.setEnable id w := by
  simp [State.setEnable]

theorem exec_seten_of_present {s : State} {id : SourceId} (v : Bool) (present : s.params.present id = true) :
    exec (.seten id v) s = .next ((s.setEnable id v).respond .ok 0) := if_pos present

theorem eq_of_exec_seten {s t : State} {id : SourceId} {v : Bool} (present : s.params.present id = true)
    (h : exec (.seten id v) s = .next t) : t = (s.setEnable id v).respond .ok 0 := by
  rw [exec_seten_of_present v present] at h
  cases h
  rfl

theorem unused_after_disable (s : State) (id : SourceId) :
    (((s.setEnable id false).respond .ok 0).reg id).used = false := by
  simp [State.reg_setEnable]

/-! ## What keeps the registration of a source -/

section

variable {s t : State} {id : SourceId}

theorem keepsRegistration_of_reg_eq (h : t.reg id = s.reg id) : KeepsRegistration id s t := by
  simp [KeepsRegistration, h]

theorem keepsRegistration_trans {u : State} (h : KeepsRegistration id s t) (h' : KeepsRegistration id t u) :
    KeepsRegistration id s u := by
  obtain ⟨cb, lim, rld, cnt⟩ := h
  obtain ⟨cb', lim', rld', cnt'⟩ := h'
  exact ⟨cb'.trans cb, lim'.trans lim, rld'.trans rld, cnt'.trans cnt⟩

/-- A write to one source that leaves its callback, limit, reload and counter keeps every registration. -/
theorem keepsRegistration_of_src_set {j : SourceId} {r : SourceRegs} (ht : t.src = s.src.set j r)
    (hr : r.cb = (s.reg j).cb ∧ r.lim = (s.reg j).lim ∧ r.rld = (s.reg j).rld ∧ r.cnt = (s.reg j).cnt) :
    KeepsRegistration id s t := by
  by_cases hid : id = j
  · have written : t.reg j = r := by rw [State.reg, ht]; exact State.reg_setReg_self s j r
    rw [hid, KeepsRegistration, written]
    exact hr
  · exact keepsRegistration_of_reg_eq (reg_of_src_set ht hid)

/-- A word keeps the registration of `id`, unless it registers `id` and is answered OK. -/
theorem Effect.keepsRegistration {i : Instr} (h : Effect s i t)
    (notRegistered : registeredSource i = some id → t.responses ≠ s.responses ++ [⟨.ok, 0⟩]) : KeepsRegistration id s t := by
  cases h with
  | regt | regc | rege | regePortChange =>
    exact keepsRegistration_of_reg_eq (reg_of_src_set rfl fun e => notRegistered (e ▸ rfl) rfl)
  -- `by` waits until the first `rfl` has fixed the fields written.
  | seten | setpri | clrf | raise | portFlag => exact keepsRegistration_of_src_set rfl (by exact ⟨rfl, rfl, rfl, rfl⟩)
  | xedge => exact keepsRegistration_of_src_set rfl (by simp)
  | clk => simp [KeepsRegistration]
  | disp | cbret => exact keepsRegistration_of_reg_eq (by simp)
  | nop | illegal | refuse | dispRejected | cbretRejected | unregistered | tstf | query | port =>
    exact keepsRegistration_of_reg_eq rfl

/-- The scanner writes nothing of a disabled source (`44_dispatch.md` R196). -/
theorem SvcEffect.reg_of_disabled {l : Level} (h : SvcEffect s l t) (disabled : (s.reg id).ie = false) :
    t.reg id = s.reg id := by
  have other : ∀ {j}, s.serviceable l j = true → id ≠ j := fun pending e => by
    obtain ⟨-, -, enabled, -⟩ := serviceable_iff.1 pending
    rw [← e, disabled] at enabled
    cases enabled
  cases h with
  | none => rfl
  | done | skip => simp
  | event _ pending | portChange _ pending | timerCounts _ pending | timerFires _ pending =>
    simp only [State.fire_reg, State.resumeAfter_reg]
    exact reg_of_src_set rfl (other pending)

/-- A move keeps the registration of a disabled source it does not register. -/
theorem keepsRegistration_of_takeMove {m : Move} {sched : List Move} (next : nextMove s = some m)
    (h : takeMove m { s with sched := sched } = .next t) (disabled : (s.reg id).ie = false) (notRegistered : ¬ Registers id s t) :
    KeepsRegistration id s t := by
  obtain ⟨p, w, i, rfl, hw, -, hi, e⟩ | ⟨_, _, _, -, -, -, -, ⟨-, rfl⟩ | ⟨-, rfl⟩⟩ | ⟨l, -, -, rfl⟩ | rfl := takeMove_cases h
  · exact (effect_of_exec e).keepsRegistration fun hsrc hok => notRegistered ⟨p, w, i, 0, next, hw, hi, hsrc, hok⟩
  · exact keepsRegistration_of_reg_eq rfl
  · exact keepsRegistration_of_reg_eq rfl
  · exact keepsRegistration_of_reg_eq ((effect_of_svc _ l).reg_of_disabled disabled)
  · exact keepsRegistration_of_reg_eq rfl

/-- And so does a step, scheduled, eager or at rest. -/
theorem keepsRegistration_of_step (h : step s = .next t) (disabled : (s.reg id).ie = false) (notRegistered : ¬ Registers id s t) :
    KeepsRegistration id s t := by
  obtain ⟨-, ⟨m, rest, hs, hm⟩ | ⟨m, hs, he, hm⟩ | ⟨-, -, rfl⟩⟩ := step_cases h
  · exact keepsRegistration_of_takeMove (by rw [nextMove, hs]) hm disabled notRegistered
  · exact keepsRegistration_of_takeMove (sched := s.sched) (by rw [nextMove, hs]; exact he) hm disabled notRegistered
  · exact keepsRegistration_of_reg_eq rfl

/-- And so does a run. -/
theorem keepsRegistration_of_run {run : Nat → State} {n : Nat}
    (h : ∀ k < n, step (run k) = .next (run (k + 1)) ∧ ((run k).reg id).ie = false ∧ ¬ Registers id (run k) (run (k + 1))) :
    KeepsRegistration id (run 0) (run n) := by
  induction n with
  | zero => exact keepsRegistration_of_reg_eq rfl
  | succ n ih =>
    obtain ⟨hstep, disabled, notRegistered⟩ := h n n.lt_succ_self
    exact keepsRegistration_trans (ih fun k hk => h k (hk.trans n.lt_succ_self))
      (keepsRegistration_of_step hstep disabled notRegistered)

end

/-! ## Registrations of a source that is not in use -/

section

variable {s : State} {id : SourceId} {cb : Handle} (unused : (s.reg id).used = false) (handle : cb ≠ 0)

include unused handle

theorem State.register_of_unused (t : State) : s.register id cb (some t) = t.respond .ok 0 := by
  rw [State.register, unused, if_neg Bool.false_ne_true, if_neg handle]

theorem exec_regt_of_unused {u : TimeUnit} {d : BitVec 16} {p : TimerParams} {c : CalcResult} (timer : s.params.timer? id = some p)
    (result : calculate s.params.fpb p (.time u) d.toNat = some c) :
    exec (.regt id u d cb) s = .next ((s.installTimer id p.width .int cb c).respond .ok 0) := by
  simp [exec, execRegt, onTimer, timer, result, State.register_of_unused unused handle]

theorem exec_regc_of_unused {n : BitVec 16} {p : TimerParams} {c : CalcResult} (timer : s.params.timer? id = some p)
    (extok : p.extok = true) (result : calculate s.params.fpb p .edge n.toNat = some c) :
    exec (.regc id n cb) s = .next ((s.installTimer id p.width .ext cb c).respond .ok 0) := by
  simp [exec, execRegc, onExtTimer, timer, extok, result, State.register_of_unused unused handle]

theorem exec_rege_of_unused (slot : s.params.slot id = .event ∨ s.params.slot id = .portChange) :
    exec (.rege id cb) s = .next ((s.installEvent id cb).respond .ok 0) := by
  rcases slot with slot | slot <;> simp [exec, execRege, onEvent, slot, State.register_of_unused unused handle]

end

/-- The success effect of a timer registration leaves the installed fields in the source. -/
theorem State.installTimer_reg (s : State) (id : SourceId) (w : TimerWidth) (cs : ClockSource) (cb : Handle) (c : CalcResult) :
    (s.installTimer id w cs cb c).reg id = ((s.reg id).program w cs c).install cb := State.reg_setReg_self ..

theorem State.installEvent_reg {s : State} {id : SourceId} (cb : Handle)
    (slot : s.params.slot id = .event ∨ s.params.slot id = .portChange) :
    (s.installEvent id cb).reg id = (s.reg id).install cb := by
  rcases slot with slot | slot <;> simp only [State.installEvent, slot] <;> exact State.reg_setReg_self ..

theorem State.installEvent_responses (s : State) (id : SourceId) (cb : Handle) :
    (s.installEvent id cb).responses = s.responses := by
  unfold State.installEvent
  cases s.params.slot id <;> rfl

/-- A word that installs `cb` in a source and says OK has replaced the callback. -/
theorem replaced_of_install {i : Instr} {s u : State} {id : SourceId} {cb : Handle} {r : SourceRegs}
    (h : exec i s = .next (u.respond .ok 0)) (responses : u.responses = s.responses) (installed : u.reg id = r.install cb) :
    ∃ u, Answers i s .ok 0 u ∧ (u.reg id).cb = cb ∧ (u.reg id).used = true ∧ (u.reg id).ie = true := by
  refine ⟨u, ?_, ?_⟩
  · rw [Answers, h, ← responses]
    rfl
  · rw [installed]
    exact ⟨rfl, rfl, rfl⟩

end Sys2Proof.Machine

namespace Sys2Proof.Proofs

open Sys2Proof.Machine Sys2Proof.Claims

/-- Settles O45: SETEN writes the two enables and nothing else, no step without a registration writes what a registration
wrote of a disabled source, and a run is an induction over its steps. -/
theorem disableIsIdempotentAndReenableResumes : Obligations.DisableIsIdempotentAndReenableResumes := by
  intro s id present
  refine ⟨fun hie hused => ?_, fun t h => ?_⟩
  · rw [Answers, exec_seten_of_present false present, State.setEnable_eq_self hie (hused.trans hie)]
    rfl
  · obtain rfl := eq_of_exec_seten present h
    have afterDisable : KeepsRegistration id s ((s.setEnable id false).respond .ok 0) :=
      keepsRegistration_of_src_set rfl (by exact ⟨rfl, rfl, rfl, rfl⟩)
    refine ⟨fun hused hie => ?_, afterDisable, fun run n start steps => ?_⟩
    · calc exec (.seten id true) ((s.setEnable id false).respond .ok 0)
          = .next ((((s.setEnable id false).setEnable id true).respond .ok 0).respond .ok 0) :=
            exec_seten_of_present (s := (s.setEnable id false).respond .ok 0) true present
        _ = .next ((s.respond .ok 0).respond .ok 0) := by
            rw [State.setEnable_setEnable, State.setEnable_eq_self hie hused]
    · exact keepsRegistration_trans afterDisable (start ▸ keepsRegistration_of_run steps)

/-- Settles O46: the disabled source is not in use, so each registration its class admits installs its callback. -/
theorem disableThenRegisterReplacesTheCallback : Obligations.DisableThenRegisterReplacesTheCallback := by
  intro s t id cb handle h
  refine ⟨fun p u d c timer result => ?_, fun p n c timer extok result => ?_, fun slot => ?_⟩
  · obtain rfl := eq_of_exec_seten (present_of_timer? timer) h
    exact replaced_of_install (exec_regt_of_unused (unused_after_disable s id) handle timer result) rfl
      (State.installTimer_reg ..)
  · obtain rfl := eq_of_exec_seten (present_of_timer? timer) h
    exact replaced_of_install (exec_regc_of_unused (unused_after_disable s id) handle timer extok result) rfl
      (State.installTimer_reg ..)
  · have present : s.params.present id = true := present_iff.2 (by rcases slot with e | e <;> simp [e])
    obtain rfl := eq_of_exec_seten present h
    exact replaced_of_install (exec_rege_of_unused (unused_after_disable s id) handle slot)
      (State.installEvent_responses ..) (State.installEvent_reg cb slot)

end Sys2Proof.Proofs
end

section
/-! PROOFS. The family `44_dispatch.md`: DISP (R191, R192), one scanner step of each kind (R195 to R201), and how often a timer
source fires (R206). -/

namespace Sys2Proof.Machine

open Sys2Proof.Claims

theorem State.setFsm_eq_withFsm (s : State) (l : Level) (f : Fsm) : s.setFsm l f = withFsm s l f := by cases l <;> rfl

/-! ## DISP -/

section

variable {s : State} {l : Level}

theorem exec_disp_of_accepted (h : s.acceptsDispatch l = true) :
    exec (.disp l) s = .next ((s.enterDispatch l).respond .ok 0) := if_pos h

theorem exec_disp_of_rejected (h : s.acceptsDispatch l ≠ true) : exec (.disp l) s = .next (s.respond .protocol 0) := if_neg h

theorem answers_disp_ok (idle : s.fsm l = .idle) (outer : l = .low → s.fsmHigh = .idle) :
    Answers (.disp l) s .ok 0 (withFsm s l (.scan 0)) := by
  rw [Answers, exec_disp_of_accepted (acceptsDispatch_iff.2 ⟨idle, outer⟩), State.enterDispatch, State.respond,
    State.setFsm_responses, State.setFsm_eq_withFsm]

theorem answers_disp_protocol (h : s.fsm l ≠ .idle ∨ l = .low ∧ s.fsmHigh ≠ .idle) : Answers (.disp l) s .protocol 0 s := by
  refine exec_disp_of_rejected fun accepted => ?_
  obtain ⟨idle, outer⟩ := acceptsDispatch_iff.1 accepted
  rcases h with running | ⟨low, high⟩
  · exact running idle
  · exact high (outer low)

end

/-! ## The scanner's step at a scan position -/

section

variable {s : State} {l : Level} {id : SourceId}

theorem State.svc_of_scan_end (h : s.fsm l = .scan 32) : s.svc l = s.endDispatch l := by
  simp [State.svc, h]

theorem State.svc_of_scan (h : s.fsm l = .scan id.castSucc) : s.svc l = s.examine l id := by
  simp [State.svc, h]

theorem State.svc_of_scan_pending (h : s.fsm l = .scan id.castSucc) (pending : s.serviceable l id = true) :
    s.svc l = s.service l id := by
  rw [State.svc_of_scan h, State.examine_of_serviceable pending]

/-- Each reason for which the scanner passes an identity (R196). -/
theorem not_serviceable_of
    (h : s.params.present id = false ∨ (s.reg id).ip ≠ l ∨ (s.reg id).ie = false ∨ (s.reg id).flag = false) :
    s.serviceable l id = false := by
  rw [← Bool.not_eq_true, serviceable_iff]
  rintro ⟨present, level, enabled, pending⟩
  rcases h with absent | otherLevel | disabled | quiet
  · exact Bool.false_ne_true (absent.symm.trans present)
  · exact otherLevel level
  · exact Bool.false_ne_true (disabled.symm.trans enabled)
  · exact Bool.false_ne_true (quiet.symm.trans pending)

/-- `fire` in the words of R201, after a service that left the handle of the source and the event stream as they were. -/
theorem State.fire_eq_withFsm {u : State} (handle : (u.reg id).cb = (s.reg id).cb) (stream : u.events = s.events) :
    ((s.reg id).cb ≠ 0 → u.fire l id = withFsm { u with events := s.events ++ [.fire l id (s.reg id).cb] } l (.wait id))
    ∧ ((s.reg id).cb = 0 → u.fire l id = withFsm { u with nocb := true } l (.scan id.succ)) := by
  rw [← handle, ← stream]
  refine ⟨fun hcb => ?_, fun hcb => ?_⟩
  · rw [State.fire, if_neg hcb, State.setFsm_eq_withFsm, State.emit]
  · rw [State.fire, if_pos hcb, State.resumeAfter, State.setFsm_eq_withFsm]

end

/-! ## The service of a TIMER source on its fields -/

section

variable {r : SourceRegs} (w : TimerWidth)

theorem SourceRegs.tick_of_le (h : r.cnt.toNat + 1 ≤ r.lim.toNat) :
    r.tick w = { r with tmr := w.trunc r.rld, cnt := r.cnt + 1 } := by
  rw [SourceRegs.tick, if_neg h.not_gt]

theorem SourceRegs.tick_of_lt (h : r.lim.toNat < r.cnt.toNat + 1) :
    r.tick w = { r with tmr := w.trunc r.rld, cnt := 0 } := by
  rw [SourceRegs.tick, if_pos h]

/-- A count within the limit goes round modulo `LIM + 1`. -/
theorem SourceRegs.tick_cnt_toNat (h : r.cnt.toNat ≤ r.lim.toNat) :
    (r.tick w).cnt.toNat = (r.cnt.toNat + 1) % (r.lim.toNat + 1) := by
  rcases h.lt_or_eq with below | atLimit
  · have bound := r.lim.isLt
    have noWrap : (r.cnt + 1).toNat = r.cnt.toNat + 1 := BitVec.toNat_add_of_lt (by simpa using by omega)
    rw [SourceRegs.tick_of_le w below, noWrap, Nat.mod_eq_of_lt (by omega)]
  · rw [SourceRegs.tick_of_lt w (by omega), atLimit, Nat.mod_self]
    rfl

/-- And the service fires exactly when it comes round to 0. -/
theorem SourceRegs.tickFires_iff_mod (h : r.cnt.toNat ≤ r.lim.toNat) :
    r.tickFires = true ↔ (r.cnt.toNat + 1) % (r.lim.toNat + 1) = 0 := by
  rw [SourceRegs.tickFires_iff]
  rcases h.lt_or_eq with below | atLimit
  · rw [Nat.mod_eq_of_lt (by omega)]
    omega
  · simp [atLimit]

theorem SourceRegs.tick_lim (r : SourceRegs) : (r.tick w).lim = r.lim := rfl

theorem SourceRegs.iterate_tick_cnt_le (h : r.cnt = 0) (m : Nat) :
    ((SourceRegs.tick w)^[m] r).cnt.toNat ≤ ((SourceRegs.tick w)^[m] r).lim.toNat := by
  cases m with
  | zero => simp [h]
  | succ m =>
    rw [Function.iterate_succ_apply', SourceRegs.tick_lim]
    exact SourceRegs.tick_cnt_le

/-- The invariant of a sequence of services: the count is the number of services modulo `LIM + 1`. -/
theorem SourceRegs.iterate_tick (h : r.cnt = 0) (m : Nat) :
    ((SourceRegs.tick w)^[m] r).cnt.toNat = m % (r.lim.toNat + 1) ∧ ((SourceRegs.tick w)^[m] r).lim = r.lim := by
  induction m with
  | zero => simp [h]
  | succ m ih =>
    obtain ⟨cnt, lim⟩ := ih
    rw [Function.iterate_succ_apply']
    refine ⟨?_, (SourceRegs.tick_lim w _).trans lim⟩
    rw [SourceRegs.tick_cnt_toNat w (SourceRegs.iterate_tick_cnt_le w h m), cnt, lim, Nat.mod_add_mod]

end

end Sys2Proof.Machine

namespace Sys2Proof.Proofs

open Sys2Proof.Machine Sys2Proof.Claims

/-- Settles O25: the count stays the number of services modulo `LIM + 1`, so it is at the limit exactly before a multiple. -/
theorem timerFiresOnceEveryLimitPlusOneServices : Obligations.TimerFiresOnceEveryLimitPlusOneServices := by
  intro w r m start u
  obtain ⟨cnt, lim⟩ : u.cnt.toNat = m % (r.lim.toNat + 1) ∧ u.lim = r.lim := SourceRegs.iterate_tick w start m
  have inRange : u.cnt.toNat ≤ u.lim.toNat := SourceRegs.iterate_tick_cnt_le w start m
  refine ⟨cnt, lim, ?_, fun fires => ?_⟩
  · rw [SourceRegs.tickFires_iff_mod inRange, cnt, lim, Nat.mod_add_mod]
  · rw [SourceRegs.tick_of_lt w (SourceRegs.tickFires_iff.1 fires)]

/-- Settles O13: a DISP is accepted exactly in the states of the first clause. -/
theorem dispEntersTheDispatchOrAnswersProtocol : Obligations.DispEntersTheDispatchOrAnswersProtocol :=
  fun _ _ => ⟨answers_disp_ok, answers_disp_protocol⟩

/-- Settles O21: at the end of the scan the dispatch returns, and an identity that is not serviceable is passed. -/
theorem scannerEndsTheScanAndSkipsIdentitiesWithNothingToDo :
    Obligations.ScannerEndsTheScanAndSkipsIdentitiesWithNothingToDo := by
  intro s l
  refine ⟨fun scanEnd => ?_, fun id scan nothingToDo => ?_⟩
  · rw [State.svc_of_scan_end scanEnd, State.endDispatch, State.emit, State.setFsm_events, State.setFsm_eq_withFsm]
  · rw [State.svc_of_scan scan, State.examine_of_not_serviceable (not_serviceable_of nothingToDo), State.resumeAfter,
      State.setFsm_eq_withFsm]

/-- Settles O22: the service is `tick` on the fields, and past the limit `fire`. -/
theorem timerServiceReloadsCountsAndFiresPastTheLimit : Obligations.TimerServiceReloadsCountsAndFiresPastTheLimit := by
  intro s l id t timer scan level enabled flag
  have pending : s.serviceable l id = true := serviceable_iff.2 ⟨present_of_timer? timer, level, enabled, flag⟩
  rw [State.svc_of_scan_pending scan pending, State.service_timer (timer?_eq_some.1 timer)]
  refine ⟨fun within => ?_, fun past => ?_⟩
  · rw [if_neg fun fires => (SourceRegs.tickFires_iff.1 fires).not_ge within, SourceRegs.tick_of_le t.width within,
      State.resumeAfter, State.setFsm_eq_withFsm]
    rfl
  · rw [if_pos (SourceRegs.tickFires_iff.2 past), SourceRegs.tick_of_lt t.width past]
    exact State.fire_eq_withFsm (by rw [State.reg_setReg_self]) rfl

/-- Settles O23: the service clears the flag, takes the snapshot for the PORTCHANGE source, and fires. -/
theorem eventAndPortChangeServiceFireOnEveryFlag : Obligations.EventAndPortChangeServiceFireOnEveryFlag := by
  intro s l id scan level enabled flag
  have pending : s.params.slot id ≠ .absent → s.serviceable l id = true := fun present =>
    serviceable_iff.2 ⟨present_iff.2 present, level, enabled, flag⟩
  have handle : ((s.setFlag id false).reg id).cb = (s.reg id).cb := by rw [State.reg_setFlag, if_pos rfl]
  refine ⟨fun slot => ?_, fun slot => ?_⟩
  · rw [State.svc_of_scan_pending scan (pending (by simp [slot])), State.service_event slot]
    exact State.fire_eq_withFsm handle rfl
  · rw [State.svc_of_scan_pending scan (pending (by simp [slot])), State.service_portChange slot]
    exact State.fire_eq_withFsm handle rfl

end Sys2Proof.Proofs
end

section
/-! PROOFS. The family `45_stimulus.md`: one edge on a channel (R221), and what no step takes back, a channel's on bit (R222)
among it. -/

namespace Sys2Proof.Machine

/-! ## One edge on a channel, case by case (R221) -/

section

variable {w : TimerWidth} {r : SourceRegs}

/-- The counter's top value as a number. -/
theorem TimerWidth.eq_top_iff {v : BitVec 16} : v = w.top ↔ v.toNat = w.maxw := by
  rw [← BitVec.toNat_inj, TimerWidth.top_toNat]

/-- Below its top the counter is not cut. -/
theorem TimerWidth.trunc_succ {v : BitVec 16} (h : v.toNat < w.maxw) : w.trunc (v + 1) = v + 1 := by
  have noWrap : (v + 1).toNat = v.toNat + 1 :=
    BitVec.toNat_add_of_lt (Nat.lt_of_le_of_lt (Nat.succ_le_of_lt h) w.maxw_lt)
  exact TimerWidth.trunc_of_le (noWrap ▸ Nat.succ_le_of_lt h)

theorem SourceRegs.edge_of_prescaling (h : r.psc + 1 ≠ r.ps) : r.edge w = { r with psc := r.psc + 1 } := by
  rw [SourceRegs.edge, if_neg h]

theorem SourceRegs.edge_of_counting (prescaled : r.psc + 1 = r.ps) (below : r.tmr.toNat < w.maxw) :
    r.edge w = { r with psc := 0, tmr := r.tmr + 1 } := by
  rw [SourceRegs.edge, if_pos prescaled, if_neg fun top => below.ne (TimerWidth.eq_top_iff.1 top),
    TimerWidth.trunc_succ below]

theorem SourceRegs.edge_of_wrap (prescaled : r.psc + 1 = r.ps) (top : r.tmr.toNat = w.maxw) (postscaling : r.pst + 1 ≠ r.qs) :
    r.edge w = { r with psc := 0, tmr := w.trunc r.rld, pst := r.pst + 1 } := by
  rw [SourceRegs.edge, if_pos prescaled, if_pos (TimerWidth.eq_top_iff.2 top), if_neg postscaling]

theorem SourceRegs.edge_of_overflow (prescaled : r.psc + 1 = r.ps) (top : r.tmr.toNat = w.maxw) (postscaled : r.pst + 1 = r.qs) :
    r.edge w = { r with psc := 0, tmr := w.trunc r.rld, pst := 0, flag := true } := by
  rw [SourceRegs.edge, if_pos prescaled, if_pos (TimerWidth.eq_top_iff.2 top), if_pos postscaled]

end

/-! ## Taking nothing back -/

/-- `new` is `old` with at most one more at its end. -/
def AddsAtMostOne {α : Type} (old new : List α) : Prop := ∃ added, new = old ++ added ∧ added.length ≤ 1

theorem addsAtMostOne_of_eq {α : Type} {old new : List α} (h : new = old) : AddsAtMostOne old new := ⟨[], by simp [h]⟩

theorem addsAtMostOne_of_snoc {α : Type} {old new : List α} {a : α} (h : new = old ++ [a]) : AddsAtMostOne old new :=
  ⟨[a], h, le_rfl⟩

/-- What a step from `s` to `t` keeps and adds: NOCB, every channel's on bit and the record stay, and the two outputs grow by at
most one each. The inbox, the schedule and the mark play no part in it. -/
def TakesNothingBack (s t : State) : Prop :=
  (s.nocb = true → t.nocb = true) ∧ (∀ id, (s.reg id).ton = true → (t.reg id).ton = true) ∧ t.params = s.params
    ∧ AddsAtMostOne s.events t.events ∧ AddsAtMostOne s.responses t.responses

theorem takesNothingBack_refl (s : State) : TakesNothingBack s s :=
  ⟨id, fun _ => id, rfl, addsAtMostOne_of_eq rfl, addsAtMostOne_of_eq rfl⟩

section

variable {s t : State}

/-- A write to one source that keeps the on bit of that source keeps every channel's. -/
theorem ton_of_src_set {j : SourceId} {r : SourceRegs} (ht : t.src = s.src.set j r)
    (hr : (s.reg j).ton = true → r.ton = true) (id : SourceId) (on : (s.reg id).ton = true) : (t.reg id).ton = true := by
  by_cases hid : id = j
  · have written : t.reg j = r := by rw [State.reg, ht]; exact State.reg_setReg_self s j r
    rw [hid, written]
    exact hr (hid ▸ on)
  · rw [reg_of_src_set ht hid]
    exact on

/-! ## A word -/

/-- A registration sets the on bit, and no word clears it (R222). -/
theorem Effect.ton {i : Instr} (h : Effect s i t) : ∀ id, (s.reg id).ton = true → (t.reg id).ton = true := by
  cases h with
  -- `by` waits until the first `rfl` has fixed the fields written.
  | regt | regc => exact ton_of_src_set rfl fun _ => by rfl
  | rege | regePortChange | seten | setpri | clrf | raise | portFlag => exact ton_of_src_set rfl fun on => by exact on
  | xedge => exact ton_of_src_set rfl (by simp)
  | clk | disp | cbret => simp
  | nop | illegal | refuse | dispRejected | cbretRejected | unregistered | tstf | query | port => exact fun _ => id

theorem Effect.addsAtMostOne_response {i : Instr} (h : Effect s i t) : AddsAtMostOne s.responses t.responses := by
  by_cases hp : i.carrier = .stimulus
  · exact addsAtMostOne_of_eq (h.no_response hp)
  · obtain ⟨_, hr, -⟩ := h.one_response hp
    exact addsAtMostOne_of_snoc hr

theorem Effect.takesNothingBack {i : Instr} (h : Effect s i t) : TakesNothingBack s t := by
  obtain ⟨-, hnocb, hevents⟩ := h.keeps_scanner_globals
  obtain ⟨hparams, -⟩ := h.sameInputs
  exact ⟨fun set => hnocb.trans set, h.ton, hparams, addsAtMostOne_of_eq hevents, h.addsAtMostOne_response⟩

/-! ## A scanner step -/

theorem State.fire_nocb (s : State) (l : Level) (id : SourceId) (set : s.nocb = true) : (s.fire l id).nocb = true := by
  rcases s.fire_cases l id with ⟨-, e⟩ | ⟨-, e⟩ <;> simp [e, set]

theorem State.fire_addsAtMostOne_event (s : State) (l : Level) (id : SourceId) : AddsAtMostOne s.events (s.fire l id).events := by
  rcases s.fire_cases l id with ⟨-, e⟩ | ⟨-, e⟩
  · exact addsAtMostOne_of_snoc (a := .fire l id (s.reg id).cb) (by simp [e])
  · exact addsAtMostOne_of_eq (by simp [e])

/-- `fire` takes nothing back of a service that takes nothing back and has emitted nothing. -/
theorem takesNothingBack_fire {u : State} (h : TakesNothingBack s u) (silent : u.events = s.events) (l : Level) (id : SourceId) :
    TakesNothingBack s (u.fire l id) := by
  obtain ⟨hnocb, hton, hparams, -, hresponses⟩ := h
  refine ⟨fun set => u.fire_nocb l id (hnocb set), by simpa using hton, by simpa using hparams, ?_, by simpa using hresponses⟩
  exact silent ▸ u.fire_addsAtMostOne_event l id

theorem takesNothingBack_resumeAfter {u : State} (h : TakesNothingBack s u) (l : Level) (id : SourceId) :
    TakesNothingBack s (u.resumeAfter l id) := by
  simpa [TakesNothingBack] using h

theorem takesNothingBack_endDispatch (s : State) (l : Level) : TakesNothingBack s (s.endDispatch l) :=
  ⟨by simp, by simp, by simp, addsAtMostOne_of_snoc (s.endDispatch_events l), addsAtMostOne_of_eq (by simp)⟩

/-- A write to one source that keeps its on bit takes nothing back. -/
theorem takesNothingBack_setReg {id : SourceId} {r : SourceRegs} (hr : (s.reg id).ton = true → r.ton = true) :
    TakesNothingBack s (s.setReg id r) :=
  ⟨fun set => set, ton_of_src_set rfl hr, rfl, addsAtMostOne_of_eq rfl, addsAtMostOne_of_eq rfl⟩

theorem takesNothingBack_clearFlag (s : State) (id : SourceId) : TakesNothingBack s (s.setFlag id false) :=
  takesNothingBack_setReg fun on => on

/-- The service of a TIMER source (R198). -/
theorem takesNothingBack_tick (s : State) (id : SourceId) (w : TimerWidth) :
    TakesNothingBack s (s.setReg id { (s.reg id).tick w with flag := false }) :=
  takesNothingBack_setReg fun on => on

/-- The service of the PORTCHANGE source (R199). -/
theorem takesNothingBack_snapshot (s : State) (id : SourceId) :
    TakesNothingBack s { s.setFlag id false with chg := s.portv ^^^ s.prev, prev := s.portv } :=
  takesNothingBack_clearFlag s id

theorem SvcEffect.takesNothingBack {l : Level} (h : SvcEffect s l t) : TakesNothingBack s t := by
  cases h with
  | none => exact takesNothingBack_refl s
  | done => exact takesNothingBack_endDispatch s l
  | skip => exact takesNothingBack_resumeAfter (takesNothingBack_refl s) l _
  | event => exact takesNothingBack_fire (takesNothingBack_clearFlag s _) rfl l _
  | portChange => exact takesNothingBack_fire (takesNothingBack_snapshot s _) rfl l _
  | timerCounts => exact takesNothingBack_resumeAfter (takesNothingBack_tick s _ _) l _
  | timerFires => exact takesNothingBack_fire (takesNothingBack_tick s _ _) rfl l _

/-! ## A step -/

theorem takesNothingBack_takeMove {m : Move} (h : takeMove m s = .next t) : TakesNothingBack s t := by
  obtain ⟨_, _, i, -, -, -, -, e⟩ | ⟨_, _, _, -, -, -, -, ⟨-, rfl⟩ | ⟨-, rfl⟩⟩ | ⟨l, -, -, rfl⟩ | rfl := takeMove_cases h
  · exact (effect_of_exec e).takesNothingBack
  · exact ⟨id, fun _ => id, rfl, addsAtMostOne_of_eq rfl, addsAtMostOne_of_snoc rfl⟩
  · exact takesNothingBack_refl s
  · exact (effect_of_svc s l).takesNothingBack
  · exact takesNothingBack_refl _

end

end Sys2Proof.Machine

namespace Sys2Proof.Proofs

open Sys2Proof.Machine Sys2Proof.Claims

/-- Settles O56: a step is one move, on the state or on the state whose schedule has lost its head, or it rests; a move is the
effect of one word or one scanner step. -/
theorem stepNeverTakesBack : Obligations.StepNeverTakesBack := by
  intro s t h
  obtain ⟨-, ⟨_, rest, -, hm⟩ | ⟨_, -, -, hm⟩ | ⟨-, -, rfl⟩⟩ := step_cases h
  · exact takesNothingBack_takeMove (s := { s with sched := rest }) hm
  · exact takesNothingBack_takeMove hm
  · exact takesNothingBack_refl _

/-- Settles O19: the four cases are the branches of the edge, with the top of the counter read as a number. -/
theorem edgeAdvancesTheChannel : Obligations.EdgeAdvancesTheChannel :=
  fun _ _ => ⟨SourceRegs.edge_of_prescaling, SourceRegs.edge_of_counting, SourceRegs.edge_of_wrap, SourceRegs.edge_of_overflow⟩

end Sys2Proof.Proofs
end

section
/-! PROOFS. The family `60_exceptions.md`: a word answered with any status other than OK changes nothing but the responses
(R246; `42_registration.md` R158). -/

namespace Sys2Proof.Machine

/-- The response that `respond` adds has the status it was given. -/
theorem status_of_respond {s u : State} {st : Status} {d : BitVec 64} {r : Response} (quiet : u.responses = s.responses)
    (h : (u.respond st d).responses = s.responses ++ [r]) : r.status = st := by
  rw [State.respond_responses, quiet] at h
  obtain rfl : ⟨st, d⟩ = r := by simpa using h
  rfl

/-- A stimulus word answers nothing, and every effect that writes more than the responses answers OK. -/
theorem Effect.eq_of_status_ne_ok {i : Instr} {s t : State} {r : Response} (h : Effect s i t)
    (answer : t.responses = s.responses ++ [r]) (notOk : r.status ≠ .ok) : t = { s with responses := t.responses } := by
  have notStimulus : i.carrier ≠ .stimulus := fun hp => by simp [h.no_response hp] at answer
  cases h with
  | nop | illegal | dispRejected | cbretRejected | unregistered | tstf | query => rfl
  | refuse port => exact absurd port notStimulus
  | clk | xedge | raise | port | portFlag => exact absurd rfl notStimulus
  | regt | regc | rege | regePortChange | seten | setpri | clrf => exact absurd (status_of_respond rfl answer) notOk
  | disp | cbret => exact absurd (status_of_respond (by simp) answer) notOk

end Sys2Proof.Machine

namespace Sys2Proof.Proofs

open Sys2Proof.Machine

/-- Settles O42: a word that decodes has one of the effects; one that does not only adds its answer, or on the stimulus port
sets the mark and answers nothing. -/
theorem wordsNotAnsweredOkChangeNothing : Obligations.WordsNotAnsweredOkChangeNothing := by
  intro p w s t r h answer notOk
  obtain ⟨i, -, e⟩ | ⟨_, -, ⟨-, e⟩ | ⟨-, e⟩⟩ := consume_cases p w s <;> rw [e] at h
  · exact (effect_of_exec h).eq_of_status_ne_ok answer notOk
  · cases h
    rfl
  · cases h
    simp at answer

end Sys2Proof.Proofs
end

section
/-! PROOFS. The family `30_encoding.md`: decoding and encoding are inverse to each other (R91 to R103), the reserved values (R95, R97,
R99), and the expansion of `clk n` (R106). -/

namespace Sys2Proof

/-! ## A word as its seven fields (R91) -/

/-- The bits of SRC. -/
def srcBits (w : Word) : BitVec 5 := w.extractLsb' 55 5

/-- Bits 50 to 48, which no format uses. -/
def spareField (w : Word) : BitVec 3 := w.extractLsb' 48 3

/-- The word with these fields, from bit 63 down. -/
def ofFields (op : BitVec 4) (s : BitVec 5) (u : BitVec 3) (v : BitVec 1) (z : BitVec 3) (h : BitVec 16) (x : BitVec 32) : Word :=
  op ++ s ++ u ++ v ++ z ++ h ++ x

/-- Word assembly leaves the spare bits 0. -/
theorem assemble_eq_ofFields (op : BitVec 4) (s : SourceId) (u : BitVec 3) (v : BitVec 1) (h : BitVec 16) (x : BitVec 32) :
    assemble op s u v h x = ofFields op (.ofFin s) u v 0 h x := rfl

/-- Every word is made of its fields. -/
theorem ofFields_of_word (w : Word) :
    ofFields (opField w) (srcBits w) (unitField w) (valField w) (spareField w) (imm16Field w) (imm32Field w) = w := by
  simp only [ofFields, opField, srcBits, unitField, valField, spareField, imm16Field, imm32Field,
    BitVec.extractLsb'_append_extractLsb'_eq_extractLsb']
  exact BitVec.extractLsb'_eq_self

theorem bitVec_append_inj {m n : Nat} {a c : BitVec m} {b d : BitVec n} : a ++ b = c ++ d ↔ a = c ∧ b = d := by
  refine ⟨fun h => ⟨?_, ?_⟩, fun ⟨h, h'⟩ => by rw [h, h']⟩
  · rw [← BitVec.extractLsb'_append_eq_left (a := a) (b := b), h, BitVec.extractLsb'_append_eq_left]
  · rw [← BitVec.extractLsb'_append_eq_right (a := a) (b := b), h, BitVec.extractLsb'_append_eq_right]

theorem ofFields_eq_iff {op op' : BitVec 4} {s s' : BitVec 5} {u u' z z' : BitVec 3} {v v' : BitVec 1} {h h' : BitVec 16}
    {x x' : BitVec 32} : ofFields op s u v z h x = ofFields op' s' u' v' z' h' x'
      ↔ op = op' ∧ s = s' ∧ u = u' ∧ v = v' ∧ z = z' ∧ h = h' ∧ x = x' := by
  change (_ : BitVec (4 + 5 + 3 + 1 + 3 + 16 + 32)) = _ ↔ _
  simp only [ofFields, bitVec_append_inj, and_assoc]

theorem ofFields_and (op op' : BitVec 4) (s s' : BitVec 5) (u u' z z' : BitVec 3) (v v' : BitVec 1) (h h' : BitVec 16)
    (x x' : BitVec 32) : ofFields op s u v z h x &&& ofFields op' s' u' v' z' h' x'
      = ofFields (op &&& op') (s &&& s') (u &&& u') (v &&& v') (z &&& z') (h &&& h') (x &&& x') := by
  change (_ : BitVec (4 + 5 + 3 + 1 + 3 + 16 + 32)) &&& _ = _
  simp only [ofFields, BitVec.and_append]

/-! ## The fixed bits of a format, field by field (R93) -/

/-- The must-be-zero fields of a format are 0. -/
def Format.UnusedZero (f : Format) (w : Word) : Prop :=
  match f with
  | .fn => srcBits w = 0 ∧ unitField w = 0 ∧ valField w = 0 ∧ spareField w = 0 ∧ imm16Field w = 0 ∧ imm32Field w = 0
  | .ft => valField w = 0 ∧ spareField w = 0
  | .fc => unitField w = 0 ∧ valField w = 0 ∧ spareField w = 0
  | .fe => unitField w = 0 ∧ valField w = 0 ∧ spareField w = 0 ∧ imm16Field w = 0
  | .fv => unitField w = 0 ∧ spareField w = 0 ∧ imm16Field w = 0 ∧ imm32Field w = 0
  | .fs => unitField w = 0 ∧ valField w = 0 ∧ spareField w = 0 ∧ imm16Field w = 0 ∧ imm32Field w = 0
  | .fq => unitField w = 0 ∧ valField w = 0 ∧ spareField w = 0 ∧ imm16Field w &&& 0xFF00 = 0 ∧ imm32Field w = 0
  | .fl => srcBits w = 0 ∧ unitField w = 0 ∧ spareField w = 0 ∧ imm16Field w = 0 ∧ imm32Field w = 0
  | .fk => srcBits w = 0 ∧ unitField w = 0 ∧ valField w = 0 ∧ spareField w = 0 ∧ imm16Field w = 0
  | .fp => srcBits w = 0 ∧ unitField w = 0 ∧ valField w = 0 ∧ spareField w = 0 ∧ imm16Field w &&& 0xFF00 = 0 ∧ imm32Field w = 0

/-- The masks of R93 as fields. -/
theorem Format.mask_eq_ofFields (f : Format) : f.mask =
    match f with
    | .fn => ofFields (.allOnes _) (.allOnes _) (.allOnes _) (.allOnes _) (.allOnes _) (.allOnes _) (.allOnes _)
    | .ft => ofFields (.allOnes _) 0 0 (.allOnes _) (.allOnes _) 0 0
    | .fc => ofFields (.allOnes _) 0 (.allOnes _) (.allOnes _) (.allOnes _) 0 0
    | .fe => ofFields (.allOnes _) 0 (.allOnes _) (.allOnes _) (.allOnes _) (.allOnes _) 0
    | .fv => ofFields (.allOnes _) 0 (.allOnes _) 0 (.allOnes _) (.allOnes _) (.allOnes _)
    | .fs => ofFields (.allOnes _) 0 (.allOnes _) (.allOnes _) (.allOnes _) (.allOnes _) (.allOnes _)
    | .fq => ofFields (.allOnes _) 0 (.allOnes _) (.allOnes _) (.allOnes _) 0xFF00 (.allOnes _)
    | .fl => ofFields (.allOnes _) (.allOnes _) (.allOnes _) 0 (.allOnes _) (.allOnes _) (.allOnes _)
    | .fk => ofFields (.allOnes _) (.allOnes _) (.allOnes _) (.allOnes _) (.allOnes _) (.allOnes _) 0
    | .fp => ofFields (.allOnes _) (.allOnes _) (.allOnes _) (.allOnes _) (.allOnes _) 0xFF00 (.allOnes _) := by
  cases f <;> rfl

theorem Opcode.pattern_eq_ofFields (o : Opcode) : o.pattern = ofFields o.bits 0 0 0 0 0 0 := by cases o <;> rfl

/-- The test of the decoder: the opcode is `o` and the unused fields are 0. -/
theorem and_mask_eq_pattern_iff {w : Word} {o : Opcode} :
    w &&& o.format.mask = o.pattern ↔ opField w = o.bits ∧ o.format.UnusedZero w := by
  conv_lhs => rw [← ofFields_of_word w, Format.mask_eq_ofFields, Opcode.pattern_eq_ofFields]
  cases o.format <;>
    simp only [ofFields_and, ofFields_eq_iff, Format.UnusedZero, BitVec.and_allOnes, BitVec.ofNat_eq_ofNat, BitVec.and_zero,
    true_and, and_true]

/-! ## The word of an instruction -/

@[simp] theorem srcBits_assemble (o : BitVec 4) (s : SourceId) (u : BitVec 3) (b : BitVec 1) (h : BitVec 16) (x : BitVec 32) :
    srcBits (assemble o s u b h x) = .ofFin s := by
  obtain ⟨-, src, -⟩ := ofFields_eq_iff.1 ((ofFields_of_word _).trans (assemble_eq_ofFields o s u b h x))
  exact src

@[simp] theorem spareField_assemble (o : BitVec 4) (s : SourceId) (u : BitVec 3) (b : BitVec 1) (h : BitVec 16) (x : BitVec 32) :
    spareField (assemble o s u b h x) = 0 := by
  obtain ⟨-, -, -, -, spare, -⟩ := ofFields_eq_iff.1 ((ofFields_of_word _).trans (assemble_eq_ofFields o s u b h x))
  exact spare

@[simp] theorem imm16OfSel8_and_high (v : BitVec 8) : imm16OfSel8 v &&& 0xFF00#16 = 0 := by
  rw [imm16OfSel8, show 0xFF00#16 = 0xFF#8 ++ 0#8 from rfl, BitVec.and_append]
  simp

/-- Where the upper half of IMM16 is 0, SEL8 is all of it. -/
theorem imm16OfSel8_sel8Field {w : Word} (h : imm16Field w &&& 0xFF00 = 0) : imm16OfSel8 (sel8Field w) = imm16Field w := by
  have halves : imm16Field w = w.extractLsb' 40 8 ++ sel8Field w :=
    (BitVec.extractLsb'_append_extractLsb'_eq_extractLsb' (start₁ := 32) (len₁ := 8) (start₂ := 40) rfl).symm
  have high : (w.extractLsb' 40 8 ++ sel8Field w) &&& (BitVec.allOnes 8 ++ 0#8) = 0#8 ++ 0#8 := halves ▸ h
  rw [BitVec.and_append, bitVec_append_inj, BitVec.and_allOnes] at high
  rw [halves, imm16OfSel8, high.1]

/-- A word is assembled from its fields where the spare ones are 0. -/
theorem assemble_fields {w : Word} (h : spareField w = 0) :
    assemble (opField w) (srcField w) (unitField w) (valField w) (imm16Field w) (imm32Field w) = w := by
  conv_rhs => rw [← ofFields_of_word w, h]
  rfl

/-- The unused fields of an instruction's word are 0. -/
theorem unusedZero_encode (i : Instr) : i.opcode.format.UnusedZero (encode i) := by
  cases i <;> simp [encode, Instr.opcode, Opcode.format, Format.UnusedZero]

/-- The operands of a well-formed instruction read back from its word. -/
theorem operandsOf_encode {i : Instr} (h : i.wellFormed = true) : operandsOf (encode i) i.opcode = .ok i := by
  cases i with
  | query s sel => simp [encode, Instr.opcode, operandsOf, queryOf, h]
  | _ => simp [encode, Instr.opcode, operandsOf]

theorem opField_encode (i : Instr) : opField (encode i) = i.opcode.bits := by
  cases i <;> exact opField_assemble ..

theorem decodeWord_encode {i : Instr} (h : i.wellFormed = true) : decodeWord (encode i) = .ok i := by
  have fixed := and_mask_eq_pattern_iff.2 ⟨opField_encode i, unusedZero_encode i⟩
  simp only [decodeWord, opField_encode, Opcode.ofBits_bits, if_pos fixed, operandsOf_encode h]

theorem decodeOn_of_decodeWord {w : Word} {i : Instr} (h : decodeWord w = .ok i) : decodeOn i.carrier w = .ok i := by
  rw [decodeOn, if_pos (routePort_of_decodeWord h), h]

/-! ## The instruction of a word -/

theorem TimeUnit.bits_of_ofBits {b : BitVec 3} {u : TimeUnit} (h : TimeUnit.ofBits b = some u) : u.bits = b := by
  revert h; revert u b; decide

theorem Selector.code_of_ofCode {c : BitVec 8} {sel : Selector} (h : Selector.ofCode c = some sel) : sel.code = c := by
  revert h; revert sel c; decide

theorem srcField_eq_zero {w : Word} (h : srcBits w = 0) : srcField w = 0 := congrArg BitVec.toFin h

theorem spareField_of_unusedZero {f : Format} {w : Word} (h : f.UnusedZero w) : spareField w = 0 := by
  cases f <;> simp_all only [Format.UnusedZero]

/-- An instruction read from the operands of `w` is encoded with the fields of `w`, where the unused ones are 0. -/
theorem encode_of_operandsOf {w : Word} {i : Instr} (operands : operandsOf w i.opcode = .ok i)
    (unused : i.opcode.format.UnusedZero w) :
    encode i = assemble i.opcode.bits (srcField w) (unitField w) (valField w) (imm16Field w) (imm32Field w) := by
  cases i with
  | nop =>
    obtain ⟨src, unit, val, -, imm16, imm32⟩ := unused
    simp [encode, srcField_eq_zero src, unit, val, imm16, imm32]
  | regt s u d cb =>
    obtain ⟨val, -⟩ := unused
    simp only [Instr.opcode, operandsOf] at operands
    split at operands
    next _ unit => cases operands; simp [encode, TimeUnit.bits_of_ofBits unit, val]
    next => cases operands
  | regc s n cb =>
    obtain ⟨unit, val, -⟩ := unused
    cases operands
    simp [encode, unit, val]
  | rege s cb =>
    obtain ⟨unit, val, -, imm16⟩ := unused
    cases operands
    simp [encode, unit, val, imm16]
  | seten s v =>
    obtain ⟨unit, -, imm16, imm32⟩ := unused
    cases operands
    simp [encode, valOfEnable_enableOfVal, unit, imm16, imm32]
  | setpri s l =>
    obtain ⟨unit, -, imm16, imm32⟩ := unused
    cases operands
    simp [encode, valOfLevel_levelOfVal, unit, imm16, imm32]
  | tstf | clrf | xedge | raise =>
    obtain ⟨unit, val, -, imm16, imm32⟩ := unused
    cases operands
    simp [encode, unit, val, imm16, imm32]
  | query s sel =>
    obtain ⟨unit, val, -, imm16, imm32⟩ := unused
    simp only [Instr.opcode, operandsOf, queryOf] at operands
    split at operands
    next _ code =>
      split at operands
      next =>
        cases operands
        simp [encode, Selector.code_of_ofCode code, imm16OfSel8_sel8Field imm16, unit, val, imm32]
      next => cases operands
    next => cases operands
  | disp l | cbret l =>
    obtain ⟨src, unit, -, imm16, imm32⟩ := unused
    cases operands
    simp [encode, valOfLevel_levelOfVal, srcField_eq_zero src, unit, imm16, imm32]
  | clk n =>
    obtain ⟨src, unit, val, -, imm16⟩ := unused
    cases operands
    simp [encode, srcField_eq_zero src, unit, val, imm16]
  | port v =>
    obtain ⟨src, unit, val, -, imm16, imm32⟩ := unused
    cases operands
    simp [encode, imm16OfSel8_sel8Field imm16, srcField_eq_zero src, unit, val, imm32]

/-- The decoder tests the one operand that need not be well-formed (R241 f). -/
theorem wellFormed_of_operandsOf {w : Word} {i : Instr} (operands : operandsOf w i.opcode = .ok i) : i.wellFormed = true := by
  cases i with
  | query s sel =>
    simp only [Instr.opcode, operandsOf, queryOf] at operands
    split at operands
    next =>
      split at operands
      next wf => cases operands; exact wf
      next => cases operands
    next => cases operands
  | _ => rfl

theorem encode_of_decodeWord {w : Word} {i : Instr} (h : decodeWord w = .ok i) : encode i = w := by
  obtain ⟨-, fixed, operands⟩ := decodeWord_ok h
  obtain ⟨op, unused⟩ := and_mask_eq_pattern_iff.1 fixed
  rw [encode_of_operandsOf operands unused, ← op, assemble_fields (spareField_of_unusedZero unused)]

/-! ## Reserved values -/

/-- A word whose OP names opcode `o` is decoded by `o`'s format and operands (R93). -/
theorem decodeWord_of_opField {w : Word} {o : Opcode} (h : opField w = o.bits) :
    decodeWord w = if w &&& o.format.mask = o.pattern then operandsOf w o else .error .mustBeZero := by
  rw [decodeWord, h, Opcode.ofBits_bits]

/-- Where the operands of `o` spell nothing, the word decodes to nothing. -/
theorem decodeWord_error_of_operandsOf {w : Word} {o : Opcode} {e : DecodeError} (h : opField w = o.bits)
    (operands : operandsOf w o = .error e) : ∃ e, decodeWord w = .error e := by
  rw [decodeWord_of_opField h, operands]
  split_ifs
  · exact ⟨_, rfl⟩
  · exact ⟨_, rfl⟩

theorem TimeUnit.ofBits_reserved {b : BitVec 3} (h : 3 ≤ b.toNat) : TimeUnit.ofBits b = none := by
  revert h; revert b; decide

theorem Selector.ofCode_reserved {c : BitVec 8} (h : c.toNat = 0x0F ∨ 0x17 ≤ c.toNat) : Selector.ofCode c = none := by
  revert h; revert c; decide

/-! ## The assembled word as a number (R103) -/

theorem toNat_append_eq_add {m n : Nat} (x : BitVec m) (y : BitVec n) : (x ++ y).toNat = x.toNat * 2 ^ n + y.toNat := by
  rw [BitVec.toNat_append, ← Nat.shiftLeft_add_eq_or_of_lt y.isLt, Nat.shiftLeft_eq]

theorem assemble_toNat (op : BitVec 4) (s : SourceId) (u : BitVec 3) (v : BitVec 1) (h : BitVec 16) (x : BitVec 32) :
    (assemble op s u v h x).toNat
      = op.toNat * 2 ^ 60 + s.val * 2 ^ 55 + u.toNat * 2 ^ 52 + v.toNat * 2 ^ 51 + h.toNat * 2 ^ 32 + x.toNat := by
  change (_ : BitVec (4 + 5 + 3 + 1 + 3 + 16 + 32)).toNat = _
  simp only [assemble, toNat_append_eq_add, BitVec.toNat_ofFin, BitVec.toNat_ofNat, Nat.zero_mod]
  ring

end Sys2Proof

namespace Sys2Proof.Proofs

open Sys2Proof.Machine

/-- Settles O33: the fixed bits and the operands of an instruction's word are those of the instruction. -/
theorem decodeOfEncodeIsTheInstruction : Obligations.DecodeOfEncodeIsTheInstruction :=
  fun _ wf => ⟨decodeWord_encode wf, decodeOn_of_decodeWord (decodeWord_encode wf)⟩

/-- Settles O34: a word that decodes has its unused fields 0, and the used ones are those of its instruction. -/
theorem everyValidWordIsTheEncodingOfItsInstruction : Obligations.EveryValidWordIsTheEncodingOfItsInstruction := by
  intro w i h
  obtain ⟨-, -, operands⟩ := decodeWord_ok h
  exact ⟨encode_of_decodeWord h, wellFormed_of_operandsOf operands⟩

/-- Settles O35: an append is a shift and a sum. -/
theorem assembledWordIsTheSumOfItsFields : Obligations.AssembledWordIsTheSumOfItsFields := assemble_toNat

/-- Settles O36, the reserved opcode, the wrong port, the reserved units and the reserved selectors in turn. -/
theorem reservedValuesSpellNoWord : Obligations.ReservedValuesSpellNoWord := by
  refine ⟨fun w op p => ?_, fun w p wrong => if_neg wrong, fun w op reserved => ?_, fun w op reserved => ?_⟩
  · unfold decodeOn
    split_ifs
    · exact ⟨.reservedOpcode, by rw [decodeWord, op]; rfl⟩
    · exact ⟨.wrongPort, rfl⟩
  · exact decodeWord_error_of_operandsOf (o := .regt) (e := .reservedUnit) op
      (by rw [operandsOf, TimeUnit.ofBits_reserved reserved])
  · exact decodeWord_error_of_operandsOf (o := .query) (e := .reservedSelector) op
      (by rw [operandsOf, Selector.ofCode_reserved reserved])

/-- Settles O37: the repeated words run `n / (2^32 - 1)` times `2^32 - 1` cycles, and the last word the rest. -/
theorem pseudoClkRunsExactlyItsCycles : Obligations.PseudoClkRunsExactlyItsCycles := by
  intro n
  unfold pseudoClk
  split_ifs with fits
  · exact ⟨[.ofNat 32 n], rfl, by simpa using fits⟩
  · refine ⟨List.replicate (n / (2 ^ 32 - 1)) 0xFFFFFFFF ++ [.ofNat 32 (n % (2 ^ 32 - 1))], by simp, ?_⟩
    have rest : (BitVec.ofNat 32 (n % (2 ^ 32 - 1))).toNat = n % (2 ^ 32 - 1) := Nat.mod_eq_of_lt (by omega)
    simp only [List.map_append, List.map_replicate, List.sum_append, List.sum_replicate, List.map_cons, List.map_nil,
      List.sum_singleton, rest]
    exact Nat.div_add_mod' n (2 ^ 32 - 1)

/-- Settles O38, one word after the other. -/
theorem decoderReadsTheWordsOfTheVectors : Obligations.DecoderReadsTheWordsOfTheVectors := ⟨rfl, rfl, rfl, rfl, rfl, rfl, rfl⟩

end Sys2Proof.Proofs
end

section
/-! PROOFS. The channel over many edges (`45_stimulus.md` R220, R221): the closed form, CLK, and when a channel at its reload sets
its flag and fires (`41_calculator.md` R134). -/

namespace Sys2Proof.Machine

open Sys2Proof.Claims

/-! ## Counting one further -/

/-- A count modulo `b` that has not come round goes on by one. -/
theorem div_mod_succ_of_ne {a b : Nat} (pos : 0 < b) (h : a % b + 1 ≠ b) : (a + 1) / b = a / b ∧ (a + 1) % b = a % b + 1 := by
  have below := Nat.mod_lt a pos
  exact (Nat.div_mod_unique pos).2 ⟨by have := Nat.mod_add_div a b; omega, by omega⟩

/-- And one that has starts again at 0. -/
theorem div_mod_succ_of_eq {a b : Nat} (h : a % b + 1 = b) : (a + 1) / b = a / b + 1 ∧ (a + 1) % b = 0 := by
  refine (Nat.div_mod_unique (by omega)).2 ⟨?_, by omega⟩
  have := Nat.mod_add_div a b
  rw [Nat.mul_add]
  omega

/-! ## The counter alone, as numbers -/

section

variable {maxw reload tmr : Nat}

/-- Before the first wrap. -/
theorem countUp_of_le {c : Nat} (h : c ≤ maxw - tmr) : countUp maxw reload tmr c = (0, tmr + c) := if_pos h

/-- And `k` increments after it. -/
theorem countUp_of_wrapped (k : Nat) : countUp maxw reload tmr (maxw - tmr + 1 + k)
    = (1 + k / (maxw - reload + 1), reload + k % (maxw - reload + 1)) := by
  simp only [countUp, if_neg (show ¬ maxw - tmr + 1 + k ≤ maxw - tmr by omega),
    show maxw - tmr + 1 + k - (maxw - tmr) - 1 = k by omega]

/-- A number of increments is one before the first wrap, or one after it. -/
theorem le_or_exists_wrapped (first c : Nat) : c ≤ first ∨ ∃ k, c = first + 1 + k :=
  (Nat.lt_or_ge first c).symm.imp_right fun h => ⟨c - (first + 1), by omega⟩

/-- From the reload itself every wrap takes the same number of increments. -/
theorem countUp_reload (c : Nat) :
    countUp maxw reload reload c = (c / (maxw - reload + 1), reload + c % (maxw - reload + 1)) := by
  rcases le_or_exists_wrapped (maxw - reload) c with before | ⟨k, rfl⟩
  · rw [countUp_of_le before, Nat.div_eq_of_lt (by omega), Nat.mod_eq_of_lt (by omega)]
  · rw [countUp_of_wrapped, Nat.add_div_left k (by omega), Nat.add_mod_left, Nat.add_comm 1]

/-- The counter stays within its width. -/
theorem countUp_le (hr : reload ≤ maxw) (ht : tmr ≤ maxw) (c : Nat) : (countUp maxw reload tmr c).2 ≤ maxw := by
  rcases le_or_exists_wrapped (maxw - tmr) c with before | ⟨k, rfl⟩
  · rw [countUp_of_le before]
    omega
  · rw [countUp_of_wrapped]
    have := Nat.mod_lt k (show 0 < maxw - reload + 1 by omega)
    omega

/-- Below its top the counter goes up by one. -/
theorem countUp_succ_of_lt {c : Nat} (h : (countUp maxw reload tmr c).2 < maxw) :
    countUp maxw reload tmr (c + 1) = ((countUp maxw reload tmr c).1, (countUp maxw reload tmr c).2 + 1) := by
  rcases le_or_exists_wrapped (maxw - tmr) c with before | ⟨k, rfl⟩
  · rw [countUp_of_le before] at h ⊢
    rw [countUp_of_le (by omega), Nat.add_assoc]
  · rw [countUp_of_wrapped] at h ⊢
    obtain ⟨wraps, count⟩ := div_mod_succ_of_ne (a := k) (b := maxw - reload + 1) (by omega) (by omega)
    rw [Nat.add_assoc _ k 1, countUp_of_wrapped, wraps, count, Nat.add_assoc]

/-- At its top it wraps to the reload. -/
theorem countUp_succ_of_eq (hr : reload ≤ maxw) (ht : tmr ≤ maxw) {c : Nat} (h : (countUp maxw reload tmr c).2 = maxw) :
    countUp maxw reload tmr (c + 1) = ((countUp maxw reload tmr c).1 + 1, reload) := by
  rcases le_or_exists_wrapped (maxw - tmr) c with before | ⟨k, rfl⟩
  · rw [countUp_of_le before] at h ⊢
    rw [show c + 1 = maxw - tmr + 1 + 0 by omega, countUp_of_wrapped, Nat.zero_div, Nat.zero_mod]
    rfl
  · rw [countUp_of_wrapped] at h ⊢
    obtain ⟨wraps, count⟩ := div_mod_succ_of_eq (a := k) (b := maxw - reload + 1) (by omega)
    rw [Nat.add_assoc _ k 1, countUp_of_wrapped, wraps, count, Nat.add_zero]
    rfl

end

/-! ## The closed form (R221) -/

section

variable {w : TimerWidth} {r : SourceRegs}

theorem SourceRegs.countsInRange_iff :
    r.countsInRange w = true ↔ r.psc.toNat < r.ps.toNat ∧ r.pst.toNat < r.qs.toNat ∧ r.tmr.toNat ≤ w.maxw := by
  simp [SourceRegs.countsInRange]

/-- A 16-bit count below its divider reaches it as a number exactly when it does as a register value. -/
theorem succ_eq_iff_of_lt {c d : BitVec 16} (h : c.toNat < d.toNat) : c + 1 = d ↔ c.toNat + 1 = d.toNat := by
  have := d.isLt
  rw [← BitVec.toNat_inj, BitVec.toNat_add_of_lt (by simpa using by omega)]
  rfl

theorem toNat_ofNat_of_lt {n m : Nat} (h : n < m) (hm : m ≤ 2 ^ 16) : (BitVec.ofNat 16 n).toNat = n :=
  Nat.mod_eq_of_lt (h.trans_le hm)

/-- What `n` edges do to the counter: the completed wraps, and its value. -/
def SourceRegs.countAfter (w : TimerWidth) (r : SourceRegs) (n : Nat) : Nat × Nat :=
  countUp w.maxw (w.trunc r.rld).toNat r.tmr.toNat ((r.psc.toNat + n) / r.ps.toNat)

theorem SourceRegs.jump_eq (n : Nat) : r.jump w n =
    { r with
      psc := .ofNat 16 ((r.psc.toNat + n) % r.ps.toNat)
      tmr := .ofNat 16 (r.countAfter w n).2
      pst := .ofNat 16 ((r.pst.toNat + (r.countAfter w n).1) % r.qs.toNat)
      flag := r.flag || decide (r.qs.toNat ≤ r.pst.toNat + (r.countAfter w n).1) } := rfl

theorem SourceRegs.jump_zero (h : r.countsInRange w = true) : r.jump w 0 = r := by
  obtain ⟨psc, pst, tmr⟩ := SourceRegs.countsInRange_iff.1 h
  have count : r.countAfter w 0 = (0, r.tmr.toNat) := by
    rw [SourceRegs.countAfter, Nat.add_zero, Nat.div_eq_of_lt psc, countUp_of_le (Nat.zero_le _), Nat.add_zero]
  have notYet : (r.flag || decide (r.qs.toNat ≤ r.pst.toNat)) = r.flag := by simp [pst]
  simp only [SourceRegs.jump_eq, count, Nat.add_zero, Nat.mod_eq_of_lt psc, Nat.mod_eq_of_lt pst, notYet,
    BitVec.ofNat_toNat, BitVec.setWidth_eq]

/-- The counts after `n` edges, as numbers. -/
theorem SourceRegs.jump_toNat (h : r.countsInRange w = true) (n : Nat) :
    (r.jump w n).psc.toNat = (r.psc.toNat + n) % r.ps.toNat
      ∧ (r.jump w n).tmr.toNat = (r.countAfter w n).2
      ∧ (r.jump w n).pst.toNat = (r.pst.toNat + (r.countAfter w n).1) % r.qs.toNat := by
  obtain ⟨psc, pst, tmr⟩ := SourceRegs.countsInRange_iff.1 h
  exact ⟨toNat_ofNat_of_lt (Nat.mod_lt _ (by omega)) r.ps.isLt.le,
    toNat_ofNat_of_lt (Nat.lt_succ_of_le (countUp_le (w.trunc_le _) tmr _)) w.maxw_lt,
    toNat_ofNat_of_lt (Nat.mod_lt _ (by omega)) r.qs.isLt.le⟩

theorem SourceRegs.countsInRange_jump (h : r.countsInRange w = true) (n : Nat) : (r.jump w n).countsInRange w = true := by
  obtain ⟨psc', tmr', pst'⟩ := SourceRegs.jump_toNat h n
  obtain ⟨psc, pst, tmr⟩ := SourceRegs.countsInRange_iff.1 h
  rw [SourceRegs.countsInRange_iff, psc', tmr', pst']
  exact ⟨Nat.mod_lt _ (Nat.zero_lt_of_lt psc), Nat.mod_lt _ (Nat.zero_lt_of_lt pst), countUp_le (w.trunc_le _) tmr _⟩

/-! One edge more on the counter: the prescaler keeps it, or it goes up by one, or it wraps to the reload. -/

theorem SourceRegs.countAfter_of_prescaling {n : Nat} (pos : 0 < r.ps.toNat) (h : (r.psc.toNat + n) % r.ps.toNat + 1 ≠ r.ps.toNat) :
    r.countAfter w (n + 1) = r.countAfter w n := by
  rw [SourceRegs.countAfter, ← Nat.add_assoc, (div_mod_succ_of_ne pos h).1, SourceRegs.countAfter]

theorem SourceRegs.countAfter_of_counting {n : Nat} (h : (r.psc.toNat + n) % r.ps.toNat + 1 = r.ps.toNat)
    (below : (r.countAfter w n).2 < w.maxw) : r.countAfter w (n + 1) = ((r.countAfter w n).1, (r.countAfter w n).2 + 1) := by
  rw [SourceRegs.countAfter, ← Nat.add_assoc, (div_mod_succ_of_eq h).1, countUp_succ_of_lt below, SourceRegs.countAfter]

theorem SourceRegs.countAfter_of_wrap {n : Nat} (h : (r.psc.toNat + n) % r.ps.toNat + 1 = r.ps.toNat) (tmr : r.tmr.toNat ≤ w.maxw)
    (top : (r.countAfter w n).2 = w.maxw) : r.countAfter w (n + 1) = ((r.countAfter w n).1 + 1, (w.trunc r.rld).toNat) := by
  rw [SourceRegs.countAfter, ← Nat.add_assoc, (div_mod_succ_of_eq h).1, countUp_succ_of_eq (w.trunc_le _) tmr top,
    SourceRegs.countAfter]

/-- A total that comes round to its divider has reached it. -/
theorem le_succ_of_mod_eq {a b : Nat} (h : a % b + 1 = b) : b ≤ a + 1 := by
  have := Nat.mod_le a b
  omega

/-- And one that does not come round reaches it no sooner. -/
theorem le_succ_iff_of_mod_ne {a b : Nat} (h : a % b + 1 ≠ b) : b ≤ a + 1 ↔ b ≤ a := by
  refine ⟨fun le => Nat.le_of_lt_succ (Nat.lt_of_le_of_ne le fun e => h ?_), Nat.le_succ_of_le⟩
  rw [Nat.mod_eq_of_lt (by omega), e]

/-- One edge more: each of the three counts goes on by one, or comes round and passes the edge on. -/
theorem SourceRegs.edge_jump (h : r.countsInRange w = true) (n : Nat) : (r.jump w n).edge w = r.jump w (n + 1) := by
  obtain ⟨psc', tmr', pst'⟩ := SourceRegs.jump_toNat h n
  obtain ⟨jpsc, jpst, jtmr⟩ := SourceRegs.countsInRange_iff.1 (SourceRegs.countsInRange_jump h n)
  obtain ⟨psc, pst, tmr⟩ := SourceRegs.countsInRange_iff.1 h
  have prescaled_iff := psc' ▸ succ_eq_iff_of_lt jpsc
  have postscaled_iff := pst' ▸ succ_eq_iff_of_lt jpst
  by_cases prescaled : (r.psc.toNat + n) % r.ps.toNat + 1 = r.ps.toNat
  · obtain ⟨-, rest⟩ := div_mod_succ_of_eq prescaled
    rcases jtmr.lt_or_eq with below | top
    · rw [SourceRegs.edge_of_counting (prescaled_iff.2 prescaled) below]
      simp only [SourceRegs.jump_eq, ← Nat.add_assoc, SourceRegs.countAfter_of_counting prescaled (tmr' ▸ below), rest,
        BitVec.ofNat_add]
      rfl
    · have count := SourceRegs.countAfter_of_wrap prescaled tmr (tmr' ▸ top)
      by_cases postscaled : (r.pst.toNat + (r.countAfter w n).1) % r.qs.toNat + 1 = r.qs.toNat
      · rw [SourceRegs.edge_of_overflow (prescaled_iff.2 prescaled) top (postscaled_iff.2 postscaled)]
        obtain ⟨-, carry⟩ := div_mod_succ_of_eq postscaled
        simp only [SourceRegs.jump_eq, ← Nat.add_assoc, count, rest, carry, le_succ_of_mod_eq postscaled, decide_true,
          Bool.or_true, BitVec.ofNat_toNat, BitVec.setWidth_eq]
        rfl
      · rw [SourceRegs.edge_of_wrap (prescaled_iff.2 prescaled) top fun e => postscaled (postscaled_iff.1 e)]
        obtain ⟨-, carry⟩ := div_mod_succ_of_ne (Nat.zero_lt_of_lt pst) postscaled
        simp only [SourceRegs.jump_eq, ← Nat.add_assoc, count, rest, carry, le_succ_iff_of_mod_ne postscaled, BitVec.ofNat_add,
          BitVec.ofNat_toNat, BitVec.setWidth_eq]
        rfl
  · obtain ⟨-, rest⟩ := div_mod_succ_of_ne (Nat.zero_lt_of_lt psc) prescaled
    rw [SourceRegs.edge_of_prescaling fun e => prescaled (prescaled_iff.1 e)]
    simp only [SourceRegs.jump_eq, SourceRegs.countAfter_of_prescaling (Nat.zero_lt_of_lt psc) prescaled, ← Nat.add_assoc, rest,
      BitVec.ofNat_add]
    rfl

theorem SourceRegs.jump_eq_iterate (h : r.countsInRange w = true) (n : Nat) : r.jump w n = (SourceRegs.edge w)^[n] r := by
  induction n with
  | zero => exact SourceRegs.jump_zero h
  | succ n ih => rw [Function.iterate_succ_apply', ← ih, SourceRegs.edge_jump h]

theorem SourceRegs.advance_eq_iterate (w : TimerWidth) (n : Nat) (r : SourceRegs) : r.advance w n = (SourceRegs.edge w)^[n] r := by
  unfold SourceRegs.advance
  split_ifs with h
  · exact SourceRegs.jump_eq_iterate h n
  · exact SourceRegs.edges_eq_iterate w n r

end

/-! ## Cycles of the peripheral clock (R220) -/

section

variable (s : State) (n : Nat)

theorem State.channelAfter_of_not_timer (cs : ClockSource) {id : SourceId} (h : s.params.timer? id = none) :
    s.channelAfter cs n id = s.reg id := by
  simp only [State.channelAfter, h]

theorem State.channelAfter_of_not_counting {cs : ClockSource} {id : SourceId} (h : (s.reg id).counts cs ≠ true) :
    s.channelAfter cs n id = s.reg id := by
  unfold State.channelAfter
  split
  · exact if_neg h
  · rfl

theorem State.channelAfter_of_counting {cs : ClockSource} {id : SourceId} {t : TimerParams} (timer : s.params.timer? id = some t)
    (h : (s.reg id).counts cs = true) : s.channelAfter cs n id = (SourceRegs.edge t.width)^[n] (s.reg id) := by
  simp only [State.channelAfter, timer, if_pos h, SourceRegs.advance_eq_iterate]

/-- The cycles of one identity one after the other. -/
theorem State.channelAfter_succ (id : SourceId) :
    s.channelAfter .int (n + 1) id = (s.clockCycles n).channelAfter .int 1 id := by
  have params := s.clockCycles_params n
  have reg := s.clockCycles_reg n id
  generalize s.clockCycles n = u at params reg ⊢
  have running : (u.reg id).counts .int = (s.reg id).counts .int := by simp [SourceRegs.counts, reg]
  cases timer : s.params.timer? id with
  | none =>
    rw [State.channelAfter_of_not_timer s _ _ timer] at reg ⊢
    rw [State.channelAfter_of_not_timer u _ _ (params ▸ timer), reg]
  | some t =>
    by_cases h : (s.reg id).counts .int = true
    · rw [State.channelAfter_of_counting s _ timer h] at reg ⊢
      rw [State.channelAfter_of_counting u _ (params ▸ timer) (running.trans h), reg, Function.iterate_succ_apply',
        Function.iterate_one]
    · rw [State.channelAfter_of_not_counting s _ h] at reg ⊢
      rw [State.channelAfter_of_not_counting u _ (running ▸ h), reg]

theorem State.channelAfter_zero (id : SourceId) : s.channelAfter .int 0 id = s.reg id := by
  unfold State.channelAfter
  split
  · rw [SourceRegs.advance_eq_iterate]
    exact ite_self _
  · rfl

theorem oneCycle_eq_clockCycles : oneCycle s = s.clockCycles 1 := by
  rw [oneCycle, State.clockCycles]
  congr 2
  funext id
  cases timer : s.params.timer? id with
  | none => rw [State.channelAfter_of_not_timer _ _ _ timer]
  | some t =>
    simp only [← SourceRegs.counts_iff]
    split_ifs with h
    · rw [State.channelAfter_of_counting _ _ timer h, Function.iterate_one]
    · rw [State.channelAfter_of_not_counting _ _ h]

theorem State.clockCycles_zero : s.clockCycles 0 = s := by
  have src : Vector.ofFn (s.channelAfter .int 0) = s.src := src_ext fun id => by simp [State.channelAfter_zero, State.reg]
  simp only [State.clockCycles, src]

theorem State.clockCycles_succ : s.clockCycles (n + 1) = (s.clockCycles n).clockCycles 1 := by
  have src : s.channelAfter .int (n + 1) = (s.clockCycles n).channelAfter .int 1 := funext (s.channelAfter_succ n)
  rw [State.clockCycles, src]
  simp only [State.clockCycles]

theorem State.clockCycles_eq_iterate : s.clockCycles n = oneCycle^[n] s := by
  induction n with
  | zero => exact s.clockCycles_zero
  | succ n ih => rw [Function.iterate_succ_apply', ← ih, oneCycle_eq_clockCycles, State.clockCycles_succ]

end

/-! ## A channel at its reload (R221; `41_calculator.md` R134) -/

/-- The channel as a registration leaves it, its limit and its count apart. -/
def SourceRegs.AtReload (w : TimerWidth) (r : SourceRegs) : Prop :=
  r.flag = false ∧ r.psc = 0 ∧ r.pst = 0 ∧ 1 ≤ r.ps.toNat ∧ 1 ≤ r.qs.toNat ∧ r.rld.toNat ≤ w.maxw ∧ r.tmr = r.rld

/-- The edges of one hardware tick. -/
def SourceRegs.tickEdges (w : TimerWidth) (r : SourceRegs) : Nat := r.ps.toNat * r.qs.toNat * (w.maxw - r.rld.toNat + 1)

section

variable {w : TimerWidth} {r : SourceRegs}

theorem SourceRegs.AtReload.countsInRange (h : r.AtReload w) : r.countsInRange w = true := by
  obtain ⟨-, psc, pst, ps, qs, rld, tmr⟩ := h
  rw [SourceRegs.countsInRange_iff, psc, pst, tmr]
  exact ⟨ps, qs, rld⟩

theorem SourceRegs.AtReload.countAfter (h : r.AtReload w) (n : Nat) : r.countAfter w n =
    (n / r.ps.toNat / (w.maxw - r.rld.toNat + 1), r.rld.toNat + n / r.ps.toNat % (w.maxw - r.rld.toNat + 1)) := by
  obtain ⟨-, psc, -, -, -, rld, tmr⟩ := h
  simp [SourceRegs.countAfter, TimerWidth.trunc_of_le rld, psc, tmr, countUp_reload]

/-- The flag is set once the wraps reach the postscale divider. -/
theorem SourceRegs.AtReload.flag_iterate_iff (h : r.AtReload w) (n : Nat) :
    ((SourceRegs.edge w)^[n] r).flag = true ↔ r.tickEdges w ≤ n := by
  rw [← SourceRegs.jump_eq_iterate h.countsInRange, SourceRegs.jump_eq, h.countAfter]
  obtain ⟨flag, -, pst, ps, -, -, -⟩ := h
  simp only [flag, pst, Bool.false_or, decide_eq_true_eq, SourceRegs.tickEdges, BitVec.ofNat_eq_ofNat, BitVec.toNat_ofNat,
    Nat.zero_mod, Nat.zero_add]
  rw [Nat.le_div_iff_mul_le (by omega), Nat.le_div_iff_mul_le ps]
  ring_nf

/-- After one tick the channel is back at its reload, its flag set. -/
theorem SourceRegs.AtReload.iterate_tickEdges (h : r.AtReload w) :
    (SourceRegs.edge w)^[r.tickEdges w] r = { r with flag := true } := by
  have flag := (h.flag_iterate_iff (r.tickEdges w)).2 le_rfl
  rw [← SourceRegs.jump_eq_iterate h.countsInRange, SourceRegs.jump_eq] at flag ⊢
  simp only at flag
  have count := h.countAfter (r.tickEdges w)
  obtain ⟨-, psc, pst, ps, -, -, tmr⟩ := h
  have increments : r.tickEdges w / r.ps.toNat = r.qs.toNat * (w.maxw - r.rld.toNat + 1) := by
    rw [SourceRegs.tickEdges, Nat.mul_assoc, Nat.mul_div_cancel_left _ ps]
  have prescaler : r.tickEdges w % r.ps.toNat = 0 := by rw [SourceRegs.tickEdges, Nat.mul_assoc, Nat.mul_mod_right]
  rw [increments, Nat.mul_div_cancel _ (Nat.succ_pos _), Nat.mul_mod_left] at count
  rw [flag, count]
  simp [prescaler, psc, pst, tmr]

/-! ## Served at once (`44_dispatch.md` R197, R198) -/

theorem SourceRegs.AtReload.tick (h : r.AtReload w) : (r.tick w).AtReload w := by
  obtain ⟨flag, psc, pst, ps, qs, rld, -⟩ := h
  exact ⟨flag, psc, pst, ps, qs, rld, TimerWidth.trunc_of_le rld⟩

theorem SourceRegs.AtReload.iterate_tick (h : r.AtReload w) (m : Nat) :
    ((SourceRegs.tick w)^[m] r).AtReload w ∧ ((SourceRegs.tick w)^[m] r).tickEdges w = r.tickEdges w := by
  induction m with
  | zero => exact ⟨h, rfl⟩
  | succ m ih =>
    rw [Function.iterate_succ_apply']
    exact ⟨ih.1.tick, ih.2⟩

theorem SourceRegs.AtReload.tickEdges_pos (h : r.AtReload w) : 0 < r.tickEdges w := by
  obtain ⟨-, -, -, ps, qs, -⟩ := h
  exact Nat.mul_pos (Nat.mul_pos ps qs) (Nat.succ_pos _)

/-- An edge within a tick is not served. -/
theorem SourceRegs.AtReload.edgeServed_of_lt (h : r.AtReload w) {k : Nat} (below : k + 1 < r.tickEdges w) (fired : Nat) :
    edgeServed w ((SourceRegs.edge w)^[k] r, fired) = ((SourceRegs.edge w)^[k + 1] r, fired) := by
  have quiet : ¬ ((SourceRegs.edge w)^[k + 1] r).flag = true := fun set => below.not_ge ((h.flag_iterate_iff _).1 set)
  rw [Function.iterate_succ_apply'] at quiet ⊢
  exact if_neg quiet

/-- The last edge of a tick is, and the service starts the next tick from the reload. -/
theorem SourceRegs.AtReload.edgeServed_of_eq (h : r.AtReload w) {k : Nat} (last : k + 1 = r.tickEdges w) (fired : Nat) :
    edgeServed w ((SourceRegs.edge w)^[k] r, fired) = (r.tick w, if r.tickFires then fired + 1 else fired) := by
  have served : ((SourceRegs.edge w)^[k] r).edge w = { r with flag := true } := by
    rw [← h.iterate_tickEdges, ← last, Function.iterate_succ_apply']
  obtain ⟨flag, -⟩ := h
  simp only [edgeServed, served, if_true]
  simp [SourceRegs.tick, SourceRegs.tickFires, flag]

/-- The channel after `n` edges: `n / T` ticks have been served, where `T` is the length of a tick, and the rest of the edges
counted since; the services have fired once every `LIM + 1`. -/
theorem SourceRegs.AtReload.iterate_edgeServed (h : r.AtReload w) (count : r.cnt = 0) (n : Nat) :
    (edgeServed w)^[n] (r, 0) = ((SourceRegs.edge w)^[n % r.tickEdges w] ((SourceRegs.tick w)^[n / r.tickEdges w] r),
      n / r.tickEdges w / (r.lim.toNat + 1)) := by
  induction n with
  | zero => simp
  | succ n ih =>
    rw [Function.iterate_succ_apply', ih]
    obtain ⟨reload, edges⟩ := h.iterate_tick (n / r.tickEdges w)
    by_cases last : n % r.tickEdges w + 1 = r.tickEdges w
    · obtain ⟨ticks, rest⟩ := div_mod_succ_of_eq last
      rw [reload.edgeServed_of_eq (last.trans edges.symm), ticks, rest, Function.iterate_zero_apply, Function.iterate_succ_apply']
      congr 1
      obtain ⟨cnt, lim⟩ := SourceRegs.iterate_tick w count (n / r.tickEdges w)
      have fires := SourceRegs.tickFires_iff_mod (SourceRegs.iterate_tick_cnt_le w count (n / r.tickEdges w))
      rw [cnt, lim, Nat.mod_add_mod, ← Nat.dvd_iff_mod_eq_zero] at fires
      split_ifs with fire
      · rw [Nat.succ_div_of_dvd (fires.1 fire)]
      · rw [Nat.succ_div_of_not_dvd fun dvd => fire (fires.2 dvd)]
    · obtain ⟨ticks, rest⟩ := div_mod_succ_of_ne h.tickEdges_pos last
      have below : n % r.tickEdges w + 1 < r.tickEdges w := Nat.lt_of_le_of_ne (Nat.mod_lt n h.tickEdges_pos) last
      rw [reload.edgeServed_of_lt (by rwa [edges]), ticks, rest]

end

end Sys2Proof.Machine

namespace Sys2Proof.Proofs

open Sys2Proof.Machine Sys2Proof.Claims

/-- Settles O20: the counts of the closed form go on by one edge as the channel does. -/
theorem advanceIsRepeatedEdges : Obligations.AdvanceIsRepeatedEdges := SourceRegs.advance_eq_iterate

/-- Settles O15: each channel's closed form is its edges, and the channels do not meet. -/
theorem clkIsItsCyclesOneAfterTheOther : Obligations.ClkIsItsCyclesOneAfterTheOther := by
  intro s n
  rw [← State.clockCycles_eq_iterate]
  rfl

/-- Settles O31, read off the closed form. -/
theorem flagIsSetEveryTickOfTheChannel : Obligations.FlagIsSetEveryTickOfTheChannel := by
  intro w r n flag psc pst ps qs rld tmr
  have reload : r.AtReload w := ⟨flag, psc, pst, ps, qs, rld, tmr⟩
  refine ⟨reload.flag_iterate_iff n, ?_⟩
  rintro rfl
  exact reload.iterate_tickEdges

/-- Settles O32: after `n` edges `n / T` ticks have been served, and one service in `LIM + 1` fires. -/
theorem servedTimerFiresOnceEveryImpliedPeriod : Obligations.ServedTimerFiresOnceEveryImpliedPeriod := by
  intro w r n flag psc pst cnt ps qs rld tmr
  have reload : r.AtReload w := ⟨flag, psc, pst, ps, qs, rld, tmr⟩
  rw [reload.iterate_edgeServed cnt, Nat.div_div_eq_div_mul]
  rfl

end Sys2Proof.Proofs
end

section
/-! PROOFS. The calculator's result against its target (`41_calculator.md` R135), and targets that need no scaling (R137). -/

namespace Sys2Proof.Machine

section

variable {fpb d : Nat} {t : TimerParams} {m : CalcMode} {c : CalcResult}

theorem CalcResult.period_eq_tick_mul (c : CalcResult) : c.period = c.tick * (c.l + 1) := rfl

/-- The implied period exceeds the target: the count is the target divided down. -/
theorem targetCycles_lt_period (h : t.meetsR11 = true) (hc : calculate fpb t m d = some c) : targetCycles fpb m d < c.period := by
  obtain ⟨-, chosen, hn, -⟩ := calculate_eq_some hc
  obtain ⟨hp, hq, -⟩ := choosePair_eq_some chosen
  rw [← calculate_l_succ hc] at hn
  have pos : 0 < c.p * c.q * (c.l + 1) := Nat.mul_pos (TimerParams.one_le_product h hp hq) (Nat.succ_pos _)
  calc targetCycles fpb m d < c.p * c.q * (c.l + 1) * (targetCycles fpb m d / (c.p * c.q * (c.l + 1)) + 1) :=
        Nat.lt_mul_div_succ _ pos
    _ = c.period := by rw [← hn, CalcResult.period, Nat.mul_right_comm]

/-- All ticks of the implied period but one fit into the target: they do even with the largest divider and a full counter. -/
theorem tick_mul_l_le (hc : calculate fpb t m d = some c) : c.tick * c.l ≤ targetCycles fpb m d := by
  obtain ⟨-, chosen, hn, -, hl, -⟩ := calculate_eq_some hc
  obtain ⟨hp, hq, fits, -⟩ := choosePair_eq_some chosen
  rw [← hn] at fits
  calc c.tick * c.l ≤ dmax t * (t.width.maxw + 1) * c.l :=
        Nat.mul_le_mul_right _ (Nat.mul_le_mul (le_dmax hp hq) (Nat.succ_le_succ fits))
    _ ≤ targetCycles fpb m d := hl ▸ dmax_pred_softMultiplier_le t _

theorem period_le (hc : calculate fpb t m d = some c) : c.period ≤ targetCycles fpb m d + c.tick := by
  rw [c.period_eq_tick_mul, Nat.mul_succ]
  exact Nat.add_le_add_right (tick_mul_l_le hc) _

theorem unitDiv_pos (u : TimeUnit) : 0 < unitDiv u := by cases u <;> decide

/-- The cycles per unit are cut to a whole number (`41_calculator.md` R122). -/
theorem targetCycles_mul_unitDiv_le (fpb : Nat) (u : TimeUnit) (d : Nat) : targetCycles fpb (.time u) d * unitDiv u ≤ fpb * d :=
  calc targetCycles fpb (.time u) d * unitDiv u = fpb / unitDiv u * unitDiv u * d := Nat.mul_right_comm ..
    _ ≤ fpb * d := Nat.mul_le_mul_right _ (Nat.div_mul_le_self ..)

/-- And that loses less than one cycle a unit. -/
theorem lt_targetCycles_add_mul_unitDiv (fpb : Nat) (u : TimeUnit) (hd : 0 < d) :
    fpb * d < (targetCycles fpb (.time u) d + d) * unitDiv u :=
  calc fpb * d < unitDiv u * (fpb / unitDiv u + 1) * d := Nat.mul_lt_mul_of_pos_right (Nat.lt_mul_div_succ _ (unitDiv_pos u)) hd
    _ = (targetCycles fpb (.time u) d + d) * unitDiv u := by simp only [targetCycles, cyclesPerUnit]; ring

theorem pos_of_targetCycles_ne_zero (h : targetCycles fpb m d ≠ 0) : 0 < d :=
  Nat.pos_of_ne_zero fun e => h (by rw [targetCycles, e, Nat.mul_zero])

/-- Where the largest divider and a full counter exceed every delay, one tick exceeds the delay: there are at least as many cycles
in a unit as ticks in the period. -/
theorem lt_tick (h : t.meetsR11 = true) (hd : d < 2 ^ 16) (hc : calculate fpb t m d = some c)
    (large : 65535 < dmax t * (t.width.maxw + 1)) : d < c.tick := by
  obtain ⟨nonzero, -, -, -, hl, -⟩ := calculate_eq_some hc
  have enough : c.l + 1 ≤ cyclesPerUnit fpb m := by
    rcases Nat.eq_zero_or_pos c.l with l | l
    · rw [l]
      exact Nat.pos_of_ne_zero fun e => nonzero (by rw [targetCycles, e, Nat.zero_mul])
    · refine Nat.lt_of_mul_lt_mul_right (a := d) ?_
      calc c.l * d < dmax t * (t.width.maxw + 1) * c.l := by
            rw [Nat.mul_comm]
            exact Nat.mul_lt_mul_of_pos_right (by omega) l
        _ ≤ cyclesPerUnit fpb m * d := hl ▸ dmax_pred_softMultiplier_le t _
  refine Nat.lt_of_mul_lt_mul_right (a := c.l + 1) ?_
  calc d * (c.l + 1) ≤ targetCycles fpb m d := by rw [targetCycles, Nat.mul_comm]; exact Nat.mul_le_mul_right _ enough
    _ < c.tick * (c.l + 1) := targetCycles_lt_period h hc

/-- A target within the counter's width takes the multiplier 1. -/
theorem softMultiplier_of_le (h : t.meetsR11 = true) {target : Nat} (ht : target ≤ t.width.maxw) : softMultiplier t target = 1 := by
  have : target < dmax t * (t.width.maxw + 1) :=
    calc target < 1 * (t.width.maxw + 1) := by omega
      _ ≤ _ := Nat.mul_le_mul_right _ (dmax_pos h)
  rw [softMultiplier, Nat.div_eq_of_lt this]

/-- And the pair without scaling, which is offered and before every other (R137). -/
theorem choosePair_of_le (h : t.meetsR11 = true) {target : Nat} (ht : target ≤ t.width.maxw) : choosePair t target 1 = some (1, 1) := by
  obtain ⟨one_p, one_q, -⟩ := TimerParams.meetsR11_iff.1 h
  obtain ⟨⟨p, q⟩, chosen⟩ := exists_choosePair h target
  rw [softMultiplier_of_le h ht] at chosen
  obtain ⟨hp, hq, -⟩ := choosePair_eq_some chosen
  have first : pairLe (p, q) (1, 1) := by
    by_contra before
    have tooBig := maxw_lt_count_of_before chosen (TimerParams.mem_pairs.2 ⟨one_p, one_q⟩) before
    exact tooBig.not_ge (by simpa using ht)
  have product : 1 ≤ p * q := TimerParams.one_le_product h hp hq
  have unscaled : p * q = 1 := by
    simp only [pairLe] at first
    omega
  rw [chosen, Nat.eq_one_of_mul_eq_one_right unscaled, Nat.eq_one_of_mul_eq_one_left unscaled]

end

end Sys2Proof.Machine

namespace Sys2Proof.Proofs

open Sys2Proof.Machine

/-- Settles O27. -/
theorem impliedPeriodIsWithinOneTickAboveTheTarget : Obligations.ImpliedPeriodIsWithinOneTickAboveTheTarget :=
  fun _ _ _ _ _ h hc => ⟨targetCycles_lt_period h hc, period_le hc⟩

/-- Settles O28: the target is within one cycle a unit of the exact period, and the implied period within one tick of the target;
a tick is longer than the delay has units. -/
theorem impliedPeriodIsWithinOneTickOfTheExactPeriod : Obligations.ImpliedPeriodIsWithinOneTickOfTheExactPeriod := by
  intro fpb t u d c h hd hc
  obtain ⟨nonzero, -⟩ := calculate_eq_some hc
  have exact_lt := lt_targetCycles_add_mul_unitDiv fpb u (pos_of_targetCycles_ne_zero nonzero)
  refine ⟨targetCycles_mul_unitDiv_le fpb u d, exact_lt, fun large => ⟨?_, ?_⟩⟩
  · calc c.period * unitDiv u ≤ (targetCycles fpb (.time u) d + c.tick) * unitDiv u := Nat.mul_le_mul_right _ (period_le hc)
      _ = targetCycles fpb (.time u) d * unitDiv u + c.tick * unitDiv u := Nat.add_mul ..
      _ ≤ fpb * d + c.tick * unitDiv u := Nat.add_le_add_right (targetCycles_mul_unitDiv_le fpb u d) _
  · calc fpb * d < (targetCycles fpb (.time u) d + d) * unitDiv u := exact_lt
      _ ≤ (c.period + c.tick) * unitDiv u :=
        Nat.mul_le_mul_right _ (Nat.add_le_add (targetCycles_lt_period h hc).le (lt_tick h hd hc large).le)
      _ = c.period * unitDiv u + c.tick * unitDiv u := Nat.add_mul ..

/-- Settles O30: the multiplier is 1 and the first candidate fits. -/
theorem shortPeriodsNeedNoScaling : Obligations.ShortPeriodsNeedNoScaling := by
  intro fpb t m d h pos short
  simp [calculate, settle, softMultiplier_of_le h short, choosePair_of_le h short, pos.ne']

end Sys2Proof.Proofs
end

section
/-! PROOFS. What each word does when it is consumed: registration (`42_registration.md` R152 to R155), control and QUERY
(`43_control.md`), CBRET (`44_dispatch.md` R193), the stimuli (`45_stimulus.md`), and which words are ILLEGAL or refused
(`60_exceptions.md` R241, R248). -/

namespace Sys2Proof.Machine

open Sys2Proof.Claims

section

variable {s t : State} {id : SourceId}

/-! ## Answers -/

theorem answers_of_respond {i : Instr} {st : Status} {d : BitVec 64} (h : exec i s = .next (t.respond st d))
    (responses : t.responses = s.responses) : Answers i s st d t := by
  rw [Answers, h, State.respond, responses]

/-! ## Registration -/

section

variable {cb : Handle}

theorem State.register_of_used (used : (s.reg id).used = true) (success : Option State) :
    s.register id cb success = s.respond .alreadyUsed 0 := if_pos used

theorem State.register_of_badArg (unused : (s.reg id).used = false) {success : Option State} (bad : cb = 0 ∨ success = none) :
    s.register id cb success = s.respond .badArg 0 := by
  obtain ⟨used, -⟩ | ⟨-, -, e⟩ | ⟨-, handle, _, some, -⟩ := register_cases s id cb success
  · exact absurd (unused.symm.trans used) Bool.false_ne_true
  · exact e
  · rw [bad.resolve_left handle] at some
    cases some

variable {p : TimerParams} (timer : s.params.timer? id = some p) (u : TimeUnit) (d : BitVec 16) (cb)

include timer in
theorem exec_regt_of_timer : exec (.regt id u d cb) s = .next
    (s.register id cb ((calculate s.params.fpb p (.time u) d.toNat).map (s.installTimer id p.width .int cb))) := by
  simp only [exec, execRegt, onTimer, timer]

include timer in
theorem exec_regc_of_timer (extok : p.extok = true) : exec (.regc id d cb) s = .next
    (s.register id cb ((calculate s.params.fpb p .edge d.toNat).map (s.installTimer id p.width .ext cb))) := by
  simp only [exec, execRegc, onExtTimer, timer, extok, if_true]

theorem exec_regt_of_not_timer (h : s.params.timer? id = none) : exec (.regt id u d cb) s = .next (s.respond .illegal 0) := by
  simp only [exec, execRegt, onTimer, h, illegalWord]

theorem exec_regc_of_not_ext (h : ∀ p, s.params.timer? id = some p → p.extok = false) :
    exec (.regc id d cb) s = .next (s.respond .illegal 0) := by
  cases timer : s.params.timer? id with
  | none => simp only [exec, execRegc, onExtTimer, timer, illegalWord]
  | some p => simp only [exec, execRegc, onExtTimer, timer, h p timer, illegalWord, Bool.false_eq_true, if_false]

theorem exec_rege_of_event (h : s.params.slot id = .event ∨ s.params.slot id = .portChange) :
    exec (.rege id cb) s = .next (s.register id cb (some (s.installEvent id cb))) := by
  rcases h with h | h <;> simp only [exec, execRege, onEvent, h]

theorem exec_rege_of_not_event (h : s.params.slot id = .absent ∨ ∃ p, s.params.slot id = .timer p) :
    exec (.rege id cb) s = .next (s.respond .illegal 0) := by
  rcases h with h | ⟨p, h⟩ <;> simp only [exec, execRege, onEvent, h, illegalWord]

end

/-! ## Control and QUERY -/

theorem onPresent_of_present (h : s.params.present id = true) (t : State) : onPresent s id t = .next t := if_pos h

theorem onPresent_of_absent (h : s.params.present id = false) (t : State) : onPresent s id t = .next (s.respond .illegal 0) := by
  rw [onPresent, h, if_neg Bool.false_ne_true, illegalWord]

@[simp] theorem bit_setWidth (b : Bool) : (bit b).setWidth 64 = if b then 1 else 0 := by cases b <;> rfl

theorem levelBit_setWidth (l : Level) : (levelBit l).setWidth 64 = if l = .high then 1 else 0 := by cases l <;> rfl

theorem ClockSource.bit_setWidth (c : ClockSource) : c.bit.setWidth 64 = if c = .ext then 1 else 0 := by cases c <;> rfl

/-- A QUERY whose selector applies to its source. -/
theorem answers_query_source {f : SourceField} (present : s.params.present id = true)
    (timer : f.timerOnly = true → (s.params.timer? id).isSome = true) :
    Answers (.query id (.source f)) s .ok ((s.reg id).read f) s := by
  refine answers_of_respond ?_ rfl
  simp only [exec, execQuery, readField_source, if_pos (And.intro present timer)]

theorem answers_query_illegal {sel : Selector} (h : s.readField id sel = none) : Answers (.query id sel) s .illegal 0 s := by
  refine answers_of_respond ?_ rfl
  simp only [exec, execQuery, h, illegalWord]

/-- QUERY of any field of a TIMER source. -/
theorem answers_query_timer (f : SourceField) (timer : (s.params.timer? id).isSome = true) :
    Answers (.query id (.source f)) s .ok ((s.reg id).read f) s := by
  obtain ⟨p, hp⟩ := Option.isSome_iff_exists.1 timer
  exact answers_query_source (present_of_timer? hp) fun _ => timer

/-- The code of an FSM as QUERY returns it (`10_state.md` R50). -/
theorem Fsm.encode_spec (f : Fsm) :
    (f = .idle → f.encode.setWidth 64 = 0#64) ∧ (∀ i, f = .scan i → (f.encode.setWidth 64).toNat = 0x40 + i.val)
      ∧ ∀ i, f = .wait i → (f.encode.setWidth 64).toNat = 0x80 + i.val := by
  refine ⟨?_, ?_, ?_⟩
  · rintro rfl
    rfl
  · rintro i rfl
    have := i.isLt
    simp [Fsm.encode]
    omega
  · rintro i rfl
    have := i.isLt
    simp [Fsm.encode]
    omega

/-! ## The stimuli -/

theorem exec_xedge_of_timer {p : TimerParams} (timer : s.params.timer? id = some p) :
    exec (.xedge id) s = .next (s.externalEdge id) := by
  simp only [exec, execXedge, timer]

theorem exec_port_quiet {v : BitVec 8} (h : s.params.portChange? = none ∨ groupChanged s.portv v = false) :
    exec (.port v) s = .next { s with portv := v } := by
  simp only [exec, execPort]
  split
  · rename_i rb source
    rw [h.resolve_left (by simp [source]), if_neg Bool.false_ne_true]
  · rfl

theorem exec_port_flag {v : BitVec 8} {rb : SourceId} (source : s.params.portChange? = some rb)
    (changed : groupChanged s.portv v = true) : exec (.port v) s = .next ({ s with portv := v }.setFlag rb true) := by
  simp only [exec, execPort, source, changed, if_true]

/-! ## Legal words -/

/-- Every word completes: its guard lets the effect through, or answers, or sets the mark. -/
theorem exec_completes (i : Instr) (s : State) : ∃ t, exec i s = .next t := by
  cases i with
  | nop => exact ⟨_, rfl⟩
  | regt => obtain ⟨_, -, e⟩ | ⟨-, e⟩ := onTimer_cases s _ _ <;> exact ⟨_, e⟩
  | regc => obtain ⟨_, -, -, e⟩ | ⟨-, e⟩ := onExtTimer_cases s _ _ <;> exact ⟨_, e⟩
  | rege => obtain ⟨-, e⟩ | ⟨-, e⟩ := onEvent_cases s _ _ <;> exact ⟨_, e⟩
  | seten | setpri | tstf | clrf => obtain ⟨-, e⟩ | ⟨-, e⟩ := onPresent_cases s _ _ <;> exact ⟨_, e⟩
  | query id sel =>
    simp only [exec, execQuery]
    split
    · exact ⟨_, rfl⟩
    · exact ⟨_, rfl⟩
  | disp l =>
    by_cases h : s.acceptsDispatch l = true
    · exact ⟨_, exec_disp_of_accepted h⟩
    · exact ⟨_, exec_disp_of_rejected h⟩
  | cbret l =>
    simp only [exec, execCbret]
    split
    · exact ⟨_, rfl⟩
    · exact ⟨_, rfl⟩
  | clk n => exact ⟨_, rfl⟩
  | xedge id =>
    simp only [exec, execXedge]
    split
    · exact ⟨_, rfl⟩
    · exact ⟨_, rfl⟩
  | raise id =>
    by_cases h : s.params.present id = true
    · exact ⟨_, if_pos h⟩
    · exact ⟨_, if_neg h⟩
  | port v =>
    cases source : s.params.portChange? with
    | none => exact ⟨_, exec_port_quiet (.inl source)⟩
    | some rb =>
      cases changed : groupChanged s.portv v with
      | false => exact ⟨_, exec_port_quiet (.inr changed)⟩
      | true => exact ⟨_, exec_port_flag source changed⟩

/-- A QUERY reads a field exactly where it is legal. -/
theorem legal_of_readField {sel : Selector} {v : BitVec 64} (h : s.readField id sel = some v) :
    (Instr.query id sel).legal s.params = true := by
  cases sel with
  | source f =>
    rw [State.readField] at h
    split_ifs at h with legal
    exact legal
  | global g =>
    rw [readField_global] at h
    split_ifs at h with legal
    exact decide_eq_true legal

/-- A word is legal and answers no ILLEGAL and leaves the mark; or it is not, and that answer or the mark is all it does. -/
theorem Effect.legal_cases {i : Instr} (h : Effect s i t) :
    (i.legal s.params = true ∧ t.responses ≠ s.responses ++ [⟨.illegal, 0⟩] ∧ t.refused = s.refused)
      ∨ (i.legal s.params = false ∧ i.carrier ≠ .stimulus ∧ t = s.respond .illegal 0)
      ∨ (i.legal s.params = false ∧ i.carrier = .stimulus ∧ t = s.refuse) := by
  cases h with
  | illegal port legal => exact .inr (.inl ⟨legal, port, rfl⟩)
  | refuse port legal => exact .inr (.inr ⟨legal, port, rfl⟩)
  | unregistered status word legal => exact .inl ⟨legal, by rcases status with rfl | rfl <;> simp, rfl⟩
  | nop | dispRejected | cbretRejected => exact .inl ⟨rfl, by simp, rfl⟩
  | regt timer | xedge timer => exact .inl ⟨by simp [Instr.legal, timer], by simp [State.installTimer, State.externalEdge], rfl⟩
  | regc timer extok => exact .inl ⟨by simp [Instr.legal, timer, extok], by simp [State.installTimer], rfl⟩
  | rege slot | regePortChange slot =>
    exact .inl ⟨by simp [Instr.legal, Params.present, Params.timer?, slot], by simp [State.respond], rfl⟩
  | seten present | setpri present | tstf present | clrf present | raise present => exact .inl ⟨present, by simp, rfl⟩
  | query field => exact .inl ⟨legal_of_readField field, by simp, rfl⟩
  | disp | cbret => exact .inl ⟨rfl, by simp, by simp⟩
  | clk => exact .inl ⟨rfl, by simp, by simp⟩
  | port | portFlag => exact .inl ⟨rfl, by simp, rfl⟩

end

end Sys2Proof.Machine

namespace Sys2Proof.Proofs

open Sys2Proof.Machine Sys2Proof.Claims

/-- Settles O3. -/
theorem nopAnswersOkAndChangesNothing : Obligations.NopAnswersOkAndChangesNothing := fun _ => rfl

/-- Settles O4: the checks of a registration in their order, then the installed fields. -/
theorem regtProgramsTheTimerOrAnswersWhy : Obligations.RegtProgramsTheTimerOrAnswersWhy := by
  intro s id u d cb
  refine ⟨fun h => answers_of_respond (exec_regt_of_not_timer cb u d h) rfl, fun t timer => ⟨fun used => ?_, fun unused bad => ?_,
    fun c unused handle result => ?_⟩⟩
  · rw [Answers, exec_regt_of_timer cb timer, State.register_of_used used]
    rfl
  · rw [Answers, exec_regt_of_timer cb timer, State.register_of_badArg unused (by simpa using bad)]
    rfl
  · exact answers_of_respond (exec_regt_of_unused unused handle timer result) rfl

/-- Settles O5: as for REGT, past the test that the source counts external edges. -/
theorem regcProgramsTheCounterOrAnswersWhy : Obligations.RegcProgramsTheCounterOrAnswersWhy := by
  intro s id n cb
  refine ⟨fun h => answers_of_respond (exec_regc_of_not_ext cb n (by simp [h])) rfl, fun t timer => ⟨fun noExt => ?_,
    fun extok used => ?_, fun extok unused bad => ?_, fun c extok unused handle result => ?_⟩⟩
  · exact answers_of_respond (exec_regc_of_not_ext cb n (by simp [timer, noExt])) rfl
  · rw [Answers, exec_regc_of_timer cb timer n extok, State.register_of_used used]
    rfl
  · rw [Answers, exec_regc_of_timer cb timer n extok, State.register_of_badArg unused (by simpa using bad)]
    rfl
  · exact answers_of_respond (exec_regc_of_unused unused handle timer extok result) rfl

/-- Settles O6: as for REGT; the PORTCHANGE source also takes the pins. -/
theorem regeInstallsTheEventOrAnswersWhy : Obligations.RegeInstallsTheEventOrAnswersWhy := by
  intro s id cb
  refine ⟨fun h => answers_of_respond (exec_rege_of_not_event cb h) rfl, fun slot => ⟨fun used => ?_, fun unused zero => ?_,
    fun unused handle => ⟨fun event => ?_, fun portChange => ?_⟩⟩⟩
  · rw [Answers, exec_rege_of_event cb slot, State.register_of_used used]
    rfl
  · rw [Answers, exec_rege_of_event cb slot, State.register_of_badArg unused (.inl zero)]
    rfl
  · rw [Answers, exec_rege_of_unused unused handle slot, State.installEvent, event]
    rfl
  · rw [Answers, exec_rege_of_unused unused handle slot, State.installEvent, portChange]
    rfl

/-- Settles O7. -/
theorem setenSetsEnableAndInUse : Obligations.SetenSetsEnableAndInUse := fun _ _ _ =>
  ⟨fun present => answers_of_respond (onPresent_of_present present _) rfl,
    fun absent => answers_of_respond (onPresent_of_absent absent _) rfl⟩

/-- Settles O8. -/
theorem setpriSetsThePriority : Obligations.SetpriSetsThePriority := fun _ _ _ =>
  ⟨fun present => answers_of_respond (onPresent_of_present present _) rfl,
    fun absent => answers_of_respond (onPresent_of_absent absent _) rfl⟩

/-- Settles O9: the flag as a datum is 0 or 1. -/
theorem tstfReadsThePendingFlag : Obligations.TstfReadsThePendingFlag := fun s id =>
  ⟨fun present => answers_of_respond (bit_setWidth (s.reg id).flag ▸ onPresent_of_present present _) rfl,
    fun absent => answers_of_respond (onPresent_of_absent absent _) rfl⟩

/-- Settles O10. -/
theorem clrfClearsThePendingFlag : Obligations.ClrfClearsThePendingFlag := fun _ _ =>
  ⟨fun present => answers_of_respond (onPresent_of_present present _) rfl,
    fun absent => answers_of_respond (onPresent_of_absent absent _) rfl⟩

/-- Settles O11: QUERY reads the field where its selector applies, and one-bit fields as 0 or 1. -/
theorem queryReadsEveryPerSourceField : Obligations.QueryReadsEveryPerSourceField := by
  intro s id
  refine ⟨fun present => ?_, fun timer => ?_, fun absent f => ?_, fun noTimer f timerOnly => ?_⟩
  · have answers : ∀ f : SourceField, f.timerOnly = false → Answers (.query id (.source f)) s .ok ((s.reg id).read f) s :=
      fun f any => answers_query_source present (by simp [any])
    rw [← bit_setWidth, ← bit_setWidth, ← bit_setWidth, ← levelBit_setWidth]
    exact ⟨answers .used rfl, answers .ie rfl, answers .flag rfl, answers .ip rfl, answers .cb rfl⟩
  · have answers := fun f => answers_query_timer f timer
    rw [← bit_setWidth, ← ClockSource.bit_setWidth]
    exact ⟨answers .cnt, answers .lim, answers .rld, answers .ps, answers .qs, answers .ton, answers .cs, answers .tmr,
      answers .psc, answers .pst⟩
  · exact answers_query_illegal (by simp [readField_source, absent])
  · have : f.timerOnly = true := by cases f <;> simp_all [SourceField.timerOnly]
    exact answers_query_illegal (by simp [readField_source, noTimer, this])

/-- Settles O12: QUERY with SRC 0 reads the field; the codes of the FSMs and of the IRQ pair are their values. -/
theorem queryReadsEveryGlobalField : Obligations.QueryReadsEveryGlobalField := by
  intro s
  have answers := exec_query_global s
  rw [← bit_setWidth]
  exact ⟨answers .portv, answers .prev, answers .chg, ⟨_, answers .fsmHigh, s.fsmHigh.encode_spec⟩,
    ⟨_, answers .fsmLow, s.fsmLow.encode_spec⟩, answers .nocb, ⟨_, answers .irq, readGlobal_irq_toNat s⟩,
    fun id g other => answers_query_illegal (by rw [readField_global, if_neg other])⟩

/-- Settles O14: the first clause is where a callback runs at the level. -/
theorem cbretResumesTheScanOrAnswersProtocol : Obligations.CbretResumesTheScanOrAnswersProtocol := by
  intro s l
  refine ⟨fun i waiting outer => ?_, fun h => ?_⟩
  · have running : s.runningCallback l = some i := runningCallback_eq_some.2 ⟨waiting, outer⟩
    rw [← State.setFsm_eq_withFsm]
    exact answers_of_respond (by simp only [exec, execCbret, running, State.resumeAfter]) (State.setFsm_responses ..)
  · have running : s.runningCallback l = none := by
      refine Option.eq_none_iff_forall_ne_some.2 fun i running => ?_
      obtain ⟨waiting, outer⟩ := runningCallback_eq_some.1 running
      rcases h with notWaiting | ⟨low, high⟩
      · exact notWaiting i waiting
      · exact high (outer low)
    exact answers_of_respond (by simp only [exec, execCbret, running]) rfl

/-- Settles O16: the external edge reaches the channel exactly where it counts external edges. -/
theorem xedgeCountsOneExternalEdge : Obligations.XedgeCountsOneExternalEdge := by
  intro s id
  refine ⟨fun t timer => ⟨fun on ext => ?_, fun h => ?_⟩, fun noTimer => ?_⟩
  · rw [exec_xedge_of_timer timer, State.externalEdge,
      State.channelAfter_of_counting s 1 timer (SourceRegs.counts_iff.2 ⟨on, ext⟩)]
    rfl
  · have idle : (s.reg id).counts .ext ≠ true := fun counts => by
      obtain ⟨on, ext⟩ := SourceRegs.counts_iff.1 counts
      rcases h with off | int
      · simp [on] at off
      · simp [ext] at int
    rw [exec_xedge_of_timer timer, State.externalEdge, State.channelAfter_of_not_counting s 1 idle, State.setReg_reg]
  · simp only [exec, execXedge, noTimer, refusedWord, State.refuse]

/-- Settles O17. -/
theorem raiseSetsThePendingFlag : Obligations.RaiseSetsThePendingFlag :=
  fun _ _ => ⟨fun present => if_pos present, fun absent => if_neg (by simp [absent])⟩

/-- Settles O18. -/
theorem portTakesThePinsAndFlagsAGroupChange : Obligations.PortTakesThePinsAndFlagsAGroupChange := by
  intro s v
  refine ⟨fun rb source changed => exec_port_flag source (decide_eq_true changed), fun quiet => ?_⟩
  exact exec_port_quiet (quiet.imp_right fun same => decide_eq_false (not_not.2 same))

/-- Settles O39. -/
theorem everyWordCompletes : Obligations.EveryWordCompletes := exec_completes

/-- Settles O40: a word that decodes is answered ILLEGAL or refused exactly where it is not legal, and so is every word that does
not decode. -/
theorem illegalWordsAreExactlyTheOnesThatSpellNoLegalWord :
    Obligations.IllegalWordsAreExactlyTheOnesThatSpellNoLegalWord := by
  intro p w s t h legal
  obtain ⟨i, hi, e⟩ | ⟨_, he, answer⟩ := consume_cases p w s
  · rw [e] at h
    have decoded : legal ↔ i.legal s.params = true :=
      ⟨fun ⟨j, hj, ok⟩ => by rw [hi] at hj; cases hj; exact ok, fun ok => ⟨i, hi, ok⟩⟩
    have carrier := carrier_of_decodeOn hi
    rw [decoded]
    obtain ⟨ok, other, mark⟩ | ⟨illegal, port, rfl⟩ | ⟨illegal, port, rfl⟩ := (effect_of_exec h).legal_cases
    · exact ⟨fun _ => ⟨fun no => absurd ok no, fun e => absurd (by rw [e]) other⟩,
        fun _ => ⟨fun no => absurd ok no, fun _ => mark⟩⟩
    · exact ⟨fun _ => ⟨fun _ => rfl, fun _ => by simp [illegal]⟩, fun hp => absurd (carrier.trans hp) port⟩
    · exact ⟨fun hp => absurd (carrier.symm.trans port) hp, fun _ => ⟨fun _ => rfl, fun ok => by simp [illegal] at ok⟩⟩
  · have undecoded : ¬ legal := fun ⟨j, hj, _⟩ => by rw [he] at hj; cases hj
    obtain ⟨port, e⟩ | ⟨port, e⟩ := answer <;> rw [e] at h <;> cases h
    · exact ⟨fun _ => ⟨fun _ => rfl, fun _ => undecoded⟩, fun hp => absurd hp port⟩
    · exact ⟨fun hp => absurd port hp, fun _ => ⟨fun _ => rfl, fun ok => absurd ok undecoded⟩⟩

end Sys2Proof.Proofs
end

section
/-! PROOFS. The step: what a scheduled move does (`44_dispatch.md` R190, R194; `30_encoding.md` R99 to R101), the eager schedule
(`95_test_vectors.md`, conventions), where a step stops (`10_state.md` R52; `60_exceptions.md` R247), and what a scanner step and a
HIGH dispatch leave alone (`42_registration.md` R156; `44_dispatch.md` R204). -/

namespace Sys2Proof.Machine

open Sys2Proof.Claims

section

variable {s t : State} {p : Port} {w : Word} {l : Level}

/-! ## The words of a port -/

theorem portHeld_eq_false (h : p = .command → s.held = false) : portHeld p s = false := by
  cases p with
  | command => exact h rfl
  | vector | stimulus => rfl

theorem wordMove_of_head (head : headOf p s.inbox = some w) (free : portHeld p s = false) :
    wordMove p s = consume p w { s with inbox := dropHead p s.inbox } := by
  simp only [wordMove, head, free, Bool.false_eq_true, if_false]

theorem wordMove_of_held (held : portHeld p s = true) : wordMove p s = .next s := by
  obtain ⟨-, e⟩ | ⟨_, -, ⟨-, e⟩ | ⟨free, -⟩⟩ := wordMove_cases p s
  · exact e
  · exact e
  · exact absurd (free.symm.trans held) Bool.false_ne_true

theorem consume_of_ok {i : Instr} (h : decodeOn p w = .ok i) : consume p w s = exec i s := by simp only [consume, h]

/-- The answer to a word that spells none. -/
theorem consume_of_error {e : DecodeError} (h : decodeOn p w = .error e) :
    (p ≠ .stimulus → consume p w s = .next { s with responses := s.responses ++ [⟨.illegal, 0⟩] })
      ∧ (p = .stimulus → consume p w s = .next { s with refused := true }) := by
  obtain ⟨_, ok, -⟩ | ⟨_, -, ⟨port, e⟩ | ⟨port, e⟩⟩ := consume_cases p w s
  · rw [h] at ok
    cases ok
  · exact ⟨fun _ => e, fun hp => absurd hp port⟩
  · exact ⟨fun hp => absurd port hp, fun _ => e⟩

/-- A scheduled port whose head word is not held consumes it. -/
theorem step_word {rest : List Move} (running : s.refused = false) (sched : s.sched = .word p :: rest)
    (head : headOf p s.inbox = some w) (free : p = .command → s.held = false) :
    step s = consume p w { s with sched := rest, inbox := dropHead p s.inbox } := by
  rw [step_scheduled running sched, takeMove]
  exact wordMove_of_head (s := { s with sched := rest }) head (portHeld_eq_false (s := { s with sched := rest }) free)

/-- Command words are held exactly while the innermost dispatch scans (`44_dispatch.md` R190). -/
theorem held_iff : s.held = true ↔ (∃ i, s.fsmHigh = .scan i) ∨ (s.fsmHigh = .idle ∧ ∃ i, s.fsmLow = .scan i) := by
  unfold State.held State.inner
  by_cases high : s.fsmHigh = .idle
  · by_cases low : s.fsmLow = .idle
    · simp [high, low]
    · simp [high, low, State.fsm, Fsm.scanning_iff]
  · simp [high, State.fsm, Fsm.scanning_iff]

theorem svcEnabled_high_iff : s.svcEnabled .high = true ↔ ∃ i, s.fsmHigh = .scan i := Fsm.scanning_iff

theorem svcEnabled_low_iff : s.svcEnabled .low = true ↔ s.fsmHigh = .idle ∧ ∃ i, s.fsmLow = .scan i := by
  simp [State.svcEnabled, Fsm.scanning_iff, and_comm]

/-! ## The eager schedule -/

theorem eagerMove_word (h : eagerMove s = some (.word p)) :
    s.svcEnabled .high = false ∧ s.svcEnabled .low = false ∧ ∃ w rest, s.inbox = (p, w) :: rest := by
  obtain ⟨-, e⟩ | ⟨-, -, e⟩ | ⟨high, low, ⟨q, w⟩, rest, inbox, e⟩ | ⟨-, -, -, e⟩ := eagerMove_cases s <;> rw [h] at e <;> cases e
  exact ⟨high, low, w, rest, inbox⟩

/-- Where no scanner step is enabled no word is held. -/
theorem held_eq_false (high : s.svcEnabled .high = false) (low : s.svcEnabled .low = false) : s.held = false := by
  rw [← Bool.not_eq_true, held_iff, ← svcEnabled_high_iff, ← svcEnabled_low_iff, high, low]
  simp

theorem eagerMove_high (h : s.svcEnabled .high = true) : eagerMove s = some (.svc .high) := if_pos h

theorem eagerMove_low (high : s.svcEnabled .high = false) (low : s.svcEnabled .low = true) : eagerMove s = some (.svc .low) := by
  rw [eagerMove, high, if_neg Bool.false_ne_true, if_pos low]

theorem eagerMove_of_disabled (high : s.svcEnabled .high = false) (low : s.svcEnabled .low = false) :
    eagerMove s = s.inbox.head?.map fun e => .word e.1 := by
  rw [eagerMove, high, if_neg Bool.false_ne_true, low, if_neg Bool.false_ne_true]

theorem svcMove_of_enabled (h : s.svcEnabled l = true) : svcMove l s = .next (s.svc l) := if_pos h

theorem svcMove_of_disabled (h : s.svcEnabled l = false) : svcMove l s = .next s := if_neg (by simp [h])

/-! ## Stops -/

/-- No move stops: every word completes. -/
theorem takeMove_completes (m : Move) (s : State) : ∃ t, takeMove m s = .next t := by
  cases m with
  | word p =>
    obtain ⟨-, e⟩ | ⟨w, -, ⟨-, e⟩ | ⟨-, e⟩⟩ := wordMove_cases p s
    · exact ⟨s, e⟩
    · exact ⟨s, e⟩
    · obtain ⟨i, -, e'⟩ | ⟨_, -, ⟨-, e'⟩ | ⟨-, e'⟩⟩ := consume_cases p w { s with inbox := dropHead p s.inbox }
      · obtain ⟨t, e''⟩ := exec_completes i { s with inbox := dropHead p s.inbox }
        exact ⟨t, e.trans (e'.trans e'')⟩
      · exact ⟨_, e.trans e'⟩
      · exact ⟨_, e.trans e'⟩
  | svc l =>
    obtain ⟨-, e⟩ | ⟨-, e⟩ := svcMove_cases l s
    · exact ⟨_, e⟩
    · exact ⟨_, e⟩

theorem eagerMove_eq_none_iff : eagerMove s = none ↔
    s.inbox = [] ∧ s.svcEnabled .high = false ∧ s.svcEnabled .low = false := by
  obtain ⟨h, e⟩ | ⟨-, h, e⟩ | ⟨-, -, _, _, h, e⟩ | ⟨high, low, inbox, e⟩ := eagerMove_cases s
  · simp [e, h]
  · simp [e, h]
  · simp [e, h]
  · simp [e, high, low, inbox]

/-- A step from an unmarked state: it completes, or the state is at rest and the step rests. -/
theorem step_of_unmarked (running : s.refused = false) :
    (¬ s.AtRest ∧ ∃ t, step s = .next t) ∨ (s.AtRest ∧ step s = restOutcome s) := by
  cases sched : s.sched with
  | cons m rest =>
    rw [step_scheduled running sched]
    exact .inl ⟨fun ⟨empty, _⟩ => by simp [sched] at empty, takeMove_completes ..⟩
  | nil =>
    rw [step_unscheduled running sched]
    cases eager : eagerMove s with
    | some m =>
      rw [eagerStep_of_some eager]
      refine .inl ⟨fun ⟨_, rest⟩ => ?_, takeMove_completes m s⟩
      simp [eagerMove_eq_none_iff.2 rest] at eager
    | none => exact .inr ⟨⟨sched, eagerMove_eq_none_iff.1 eager⟩, eagerStep_of_none eager⟩

/-! ## What a scanner step leaves alone -/

/-- Of a source it writes at most the flag, the counter and the software count. -/
def KeepsButService (id : SourceId) (s t : State) : Prop :=
  ∃ flag tmr cnt, t.reg id = { s.reg id with flag := flag, tmr := tmr, cnt := cnt }

theorem keepsButService_of_reg_eq {id : SourceId} (h : t.reg id = s.reg id) : KeepsButService id s t := ⟨_, _, _, h⟩

theorem keepsButService_of_src_set {id j : SourceId} {flag : Bool} {tmr : BitVec 16} {cnt : BitVec 48}
    (h : t.src = s.src.set j { s.reg j with flag := flag, tmr := tmr, cnt := cnt }) : KeepsButService id s t := by
  by_cases hid : id = j
  · refine ⟨flag, tmr, cnt, ?_⟩
    rw [hid, State.reg, h]
    exact State.reg_setReg_self s j _
  · exact keepsButService_of_reg_eq (reg_of_src_set h hid)

@[simp] theorem State.fire_src (s : State) (l : Level) (id : SourceId) : (s.fire l id).src = s.src := by
  rcases s.fire_cases l id with ⟨-, e⟩ | ⟨-, e⟩ <;> simp [e]

theorem SvcEffect.keepsButService (h : SvcEffect s l t) (id : SourceId) : KeepsButService id s t := by
  cases h with
  | none => exact keepsButService_of_reg_eq rfl
  | done | skip => exact keepsButService_of_reg_eq (by simp)
  | event | portChange => exact keepsButService_of_src_set (State.fire_src ..)
  | timerCounts => exact keepsButService_of_src_set (State.resumeAfter_src ..)
  | timerFires => exact keepsButService_of_src_set (State.fire_src ..)

theorem SvcEffect.keeps_inputs (h : SvcEffect s l t) :
    SameInputs s t ∧ t.responses = s.responses ∧ t.portv = s.portv := by
  cases h with
  | none => exact ⟨⟨rfl, rfl, rfl⟩, rfl, rfl⟩
  | done | skip | event | portChange | timerCounts | timerFires => simp [SameInputs]

/-- It moves its own FSM only. -/
theorem SvcEffect.fsm_other (h : SvcEffect s l t) {m : Level} (hm : m ≠ l) : t.fsm m = s.fsm m := by
  have fire : ∀ (u : State) id, (u.fire l id).fsm m = u.fsm m := fun u id => by
    rcases u.fire_cases l id with ⟨-, e⟩ | ⟨-, e⟩ <;> rw [e, State.setFsm_fsm_ne _ _ hm]
    · exact State.emit_fsm ..
    · cases m <;> rfl
  cases h with
  | none => rfl
  | done => rw [State.endDispatch_fsm, if_neg hm.symm]
  | skip => rw [State.resumeAfter_fsm, if_neg hm.symm]
  | event => rw [fire, State.setFlag_fsm]
  | portChange =>
    rw [fire]
    cases m <;> rfl
  | timerCounts => rw [State.resumeAfter_fsm, if_neg hm.symm, State.setReg_fsm]
  | timerFires => rw [fire, State.setReg_fsm]

/-- And adds events of its own level only. -/
theorem SvcEffect.events_level (h : SvcEffect s l t) : ∃ es, t.events = s.events ++ es ∧ ∀ e ∈ es, e.level = l := by
  have fire : ∀ (u : State) id, u.events = s.events → ∃ es, (u.fire l id).events = s.events ++ es ∧ ∀ e ∈ es, e.level = l :=
    fun u id silent => by
      rcases u.fire_cases l id with ⟨-, e⟩ | ⟨-, e⟩
      · exact ⟨[.fire l id (u.reg id).cb], by simp [e, silent], by simp [Event.level]⟩
      · exact ⟨[], by simp [e, silent], by simp⟩
  cases h with
  | none => exact ⟨[], by simp, by simp⟩
  | done => exact ⟨[.done l], by simp, by simp [Event.level]⟩
  | skip | timerCounts => exact ⟨[], by simp, by simp⟩
  | event | portChange | timerFires => exact fire _ _ rfl

/-! ## HIGH before LOW -/

/-- While HIGH is in a dispatch no word moves LOW: a DISP LOW and a CBRET LOW are answered PROTOCOL. -/
theorem Effect.fsmLow_of_high {i : Instr} (h : Effect s i t) (busy : s.fsmHigh ≠ .idle) : t.fsmLow = s.fsmLow := by
  cases h with
  | @disp l accepts =>
    obtain ⟨-, outer⟩ := acceptsDispatch_iff.1 accepts
    cases l with
    | low => exact absurd (outer rfl) busy
    | high => rfl
  | @cbret l _ running =>
    obtain ⟨-, outer⟩ := runningCallback_eq_some.1 running
    cases l with
    | low => exact absurd (outer rfl) busy
    | high => rfl
  | clk => exact State.clockCycles_fsmLow ..
  | _ => rfl

theorem takeMove_of_high {m : Move} (h : takeMove m s = .next t) (busy : s.fsmHigh ≠ .idle) :
    t.fsmLow = s.fsmLow ∧ ∃ es, t.events = s.events ++ es ∧ ∀ e ∈ es, e.level = .high := by
  have silent : ∀ {u : State}, u.events = s.events → ∃ es, u.events = s.events ++ es ∧ ∀ e ∈ es, e.level = .high :=
    fun e => ⟨[], by simp [e], by simp⟩
  obtain ⟨_, _, i, -, -, -, -, e⟩ | ⟨_, _, _, -, -, -, -, ⟨-, rfl⟩ | ⟨-, rfl⟩⟩ | ⟨l, -, enabled, rfl⟩ | rfl := takeMove_cases h
  · have effect := effect_of_exec e
    obtain ⟨-, -, events⟩ := effect.keeps_scanner_globals
    exact ⟨effect.fsmLow_of_high busy, silent events⟩
  · exact ⟨rfl, silent rfl⟩
  · exact ⟨rfl, silent rfl⟩
  · obtain ⟨-, outer⟩ := svcEnabled_iff.1 enabled
    cases l with
    | low => exact absurd (outer rfl) busy
    | high => exact ⟨(effect_of_svc s .high).fsm_other (m := .low) (by simp), (effect_of_svc s .high).events_level⟩
  · exact ⟨rfl, silent rfl⟩

end

end Sys2Proof.Machine

namespace Sys2Proof.Proofs

open Sys2Proof.Machine Sys2Proof.Claims

/-- Settles O47. -/
theorem stepRunsTheDecodedWord : Obligations.StepRunsTheDecodedWord := by
  intro s p w i rest running sched head decoded free
  rw [step_word running sched head free, consume_of_ok decoded]

/-- Settles O48: the offered word is at the head of its port, and taking it away gives back the state. -/
theorem offeredWordRunsInTheNextStep : Obligations.OfferedWordRunsInTheNextStep := by
  intro s nbits w i running decoded free
  have ok : decodeWord (tableWord nbits w) = .ok i := by
    unfold decodeTableWord at decoded
    split at decoded
    next h => cases decoded; exact h
    next => cases decoded
  have route := routePort_of_decodeWord ok
  have head : headOf i.carrier (s.withFetchWord nbits w).inbox = some (tableWord nbits w) := if_pos route
  have drop : dropHead i.carrier (s.withFetchWord nbits w).inbox = s.inbox := if_pos route
  rw [step_word (s := s.withFetchWord nbits w) (rest := s.sched) running (by rw [← route]; rfl) head free,
    consume_of_ok (decodeOn_of_decodeWord ok), drop]
  rfl

/-- Settles O49. -/
theorem heldWordStaysAtItsPort : Obligations.HeldWordStaysAtItsPort := by
  refine ⟨fun s => held_iff, fun s rest running sched held => ?_⟩
  rw [step_scheduled running sched, takeMove]
  exact wordMove_of_held (s := { s with sched := rest }) (p := .command) held

/-- Settles O50. -/
theorem invalidWordIsAnsweredIllegalOrRefused : Obligations.InvalidWordIsAnsweredIllegalOrRefused := by
  intro s p w e rest running sched head invalid free
  rw [step_word running sched head free]
  exact consume_of_error invalid

/-- Settles O51. -/
theorem scannerMovesExactlyWhereItIsEnabled : Obligations.ScannerMovesExactlyWhereItIsEnabled := by
  intro s l rest running sched u
  rw [step_scheduled running sched, takeMove]
  have enabled : u.svcEnabled l = s.svcEnabled l := svcEnabled_congr l rfl rfl
  refine ⟨fun scan outer => svcMove_of_enabled (enabled.trans (svcEnabled_iff.2 ⟨scan, outer⟩)),
    fun h => svcMove_of_disabled (enabled.trans ?_)⟩
  · rw [← Bool.not_eq_true, svcEnabled_iff]
    rintro ⟨⟨i, scan⟩, outer⟩
    rcases h with noScan | ⟨low, high⟩
    · exact noScan i scan
    · exact high (outer low)

/-- Settles O52. -/
theorem noStepOnceRefused : Obligations.NoStepOnceRefused :=
  ⟨fun _ => step_refused, fun p illFormed => step_refused (by rw [State.resetWith_refused, illFormed]; rfl)⟩

/-- Settles O53: no move stops, so past the mark only rest can. -/
theorem stepStopsOnlyWhenRefusedOrFaultedAtRest : Obligations.StepStopsOnlyWhenRefusedOrFaultedAtRest := by
  intro s
  cases mark : s.refused with
  | true =>
    rw [step_refused mark]
    exact ⟨fun r => ⟨fun e => by cases e; exact ⟨rfl, rfl⟩, fun ⟨_, e⟩ => e ▸ rfl⟩, fun f => by simp⟩
  | false =>
    obtain ⟨busy, t, e⟩ | ⟨rest, e⟩ := step_of_unmarked mark
    · rw [e]
      exact ⟨fun r => by simp, fun f => ⟨nofun, fun ⟨_, rest, _⟩ => absurd rest busy⟩⟩
    · rw [e, restOutcome]
      split_ifs with fault
      · exact ⟨fun r => by simp, fun f => ⟨fun stop => by cases stop; exact ⟨rfl, rest, fault, rfl⟩, fun ⟨_, _, _, e⟩ => e ▸ rfl⟩⟩
      · exact ⟨fun r => by simp, fun f => ⟨nofun, fun ⟨_, _, faulted, _⟩ => absurd faulted fault⟩⟩

/-- Settles O54: the eager move by cases of the scanner's enable, and then of the first word. -/
theorem unscheduledStepIsEagerAndNeverHolds : Obligations.UnscheduledStepIsEagerAndNeverHolds := by
  refine ⟨fun s p eager => ?_, fun s running sched => ⟨fun scan => ?_, fun idle scan => ?_, fun noHigh noLow => ?_⟩⟩
  · obtain ⟨high, low, w, rest, inbox⟩ := eagerMove_word eager
    exact ⟨portHeld_eq_false fun _ => held_eq_false high low, w, by rw [inbox]; exact if_pos rfl⟩
  · have high : s.svcEnabled .high = true := svcEnabled_high_iff.2 scan
    rw [step_unscheduled running sched, eagerStep_of_some (eagerMove_high high), takeMove, svcMove_of_enabled high]
  · have high : s.svcEnabled .high = false := by simp [State.svcEnabled, idle, Fsm.scanning]
    have low : s.svcEnabled .low = true := svcEnabled_low_iff.2 ⟨idle, scan⟩
    rw [step_unscheduled running sched, eagerStep_of_some (eagerMove_low high low), takeMove, svcMove_of_enabled low]
  · have high : s.svcEnabled .high = false := by
      rw [← Bool.not_eq_true, svcEnabled_high_iff]
      exact fun ⟨i, scan⟩ => noHigh i scan
    have low : s.svcEnabled .low = false := by
      rw [← Bool.not_eq_true, svcEnabled_low_iff]
      exact fun ⟨idle, i, scan⟩ => noLow.elim (fun busy => busy idle) fun noScan => noScan i scan
    have eager := eagerMove_of_disabled high low
    rw [step_unscheduled running sched]
    refine ⟨fun p w rest inbox => ?_, fun inbox noFault => ?_, fun inbox fault => ?_⟩
    · intro u
      have consumed : eagerStep s = consume p w u := by
        rw [inbox] at eager
        rw [eagerStep_of_some eager, takeMove, wordMove_of_head (w := w) (by rw [inbox]; exact if_pos rfl)
          (portHeld_eq_false fun _ => held_eq_false high low), inbox, show dropHead p ((p, w) :: rest) = rest from if_pos rfl]
      rw [consumed]
      exact ⟨fun i ok => consume_of_ok ok, fun e invalid => consume_of_error invalid⟩
    · rw [inbox] at eager
      rw [eagerStep_of_none eager, restOutcome, noFault]
      rfl
    · rw [inbox] at eager
      rw [eagerStep_of_none eager, restOutcome, fault]
      rfl

/-- Settles O55. -/
theorem highDispatchRunsBeforeLowContinues : Obligations.HighDispatchRunsBeforeLowContinues := by
  intro s t busy h
  obtain ⟨-, ⟨_, rest, -, hm⟩ | ⟨_, -, -, hm⟩ | ⟨-, -, rfl⟩⟩ := step_cases h
  · exact takeMove_of_high (s := { s with sched := rest }) hm busy
  · exact takeMove_of_high hm busy
  · exact ⟨rfl, [], by simp, by simp⟩

/-- Settles O44: of each source a scanner step writes at most what a service writes. -/
theorem scannerKeepsPriorityHandleAndEnables : Obligations.ScannerKeepsPriorityHandleAndEnables := by
  intro s l id r
  obtain ⟨inputs, responses, portv⟩ := (effect_of_svc s l).keeps_inputs
  obtain ⟨flag, tmr, cnt, kept⟩ := (effect_of_svc s l).keepsButService id
  have kept : r = { s.reg id with flag := flag, tmr := tmr, cnt := cnt } := kept
  rw [kept]
  exact ⟨rfl, rfl, rfl, rfl, rfl, rfl, rfl, rfl, rfl, rfl, rfl, rfl, inputs, responses, portv⟩

end Sys2Proof.Proofs
end

section
/-! PROOFS. The invariants of the reachable states: the fields (`10_state.md` section 2, R39, R44, R56 to R58; `44_dispatch.md` R201),
and the agreement of the event stream with the FSMs (`44_dispatch.md` R193, R195, R201, R202). -/

namespace Sys2Proof.Machine

/-! ## The invariant of one source -/

section

variable {ipReset : Level} {slot : Slot} {t : TimerParams} {r : SourceRegs}

theorem sourceInv_reset (ipReset : Level) (slot : Slot) : SourceInv ipReset slot (SourceRegs.reset ipReset) := by
  cases slot with
  | absent => exact ⟨rfl, rfl⟩
  | timer t => exact ⟨rfl, by simp [SourceRegs.ChannelInRange, SourceRegs.reset]⟩
  | event | portChange => exact ⟨rfl, by simp [SourceRegs.ChannelAtReset, SourceRegs.reset]⟩

theorem SourceInv.used_eq_ie (h : SourceInv ipReset slot r) : r.used = r.ie := by
  obtain ⟨used, -⟩ := h
  exact used

/-- The fields of a present source outside its channel are free, `USED = IE` apart. -/
theorem SourceInv.with_fields (h : SourceInv ipReset slot r) (present : slot ≠ .absent) {used ie : Bool} (enable : used = ie)
    (flag : Bool) (ip : Level) (cb : Handle) :
    SourceInv ipReset slot { r with used := used, ie := ie, flag := flag, ip := ip, cb := cb } := by
  obtain ⟨-, channel⟩ := h
  cases slot with
  | absent => exact absurd rfl present
  | timer t => exact ⟨enable, channel⟩
  | event | portChange => exact ⟨enable, channel⟩

/-- Edges keep a channel in range. -/
theorem SourceRegs.ChannelInRange.iterate_edge (h : r.ChannelInRange t) (n : Nat) :
    ((SourceRegs.edge t.width)^[n] r).ChannelInRange t := by
  obtain ⟨cnt, psc, pst, ps, qs, tmr, rld⟩ := h
  have inRange : r.countsInRange t.width = true := SourceRegs.countsInRange_iff.2 ⟨psc, pst, tmr⟩
  obtain ⟨psc', pst', tmr'⟩ := SourceRegs.countsInRange_iff.1 (SourceRegs.countsInRange_jump inRange n)
  rw [← SourceRegs.jump_eq_iterate inRange]
  exact ⟨cnt, psc', pst', ps, qs, tmr', rld⟩

/-- And so does a service (R57). -/
theorem SourceRegs.ChannelInRange.tick (h : r.ChannelInRange t) : (r.tick t.width).ChannelInRange t := by
  obtain ⟨-, psc, pst, ps, qs, -, rld⟩ := h
  exact ⟨SourceRegs.tick_cnt_le, psc, pst, ps, qs, TimerWidth.trunc_le .., rld⟩

theorem sourceInv_tick (h : SourceInv ipReset (.timer t) r) : SourceInv ipReset (.timer t) { r.tick t.width with flag := false } := by
  obtain ⟨used, channel⟩ := h
  exact ⟨used, SourceRegs.ChannelInRange.tick channel⟩

/-- A registration programs a channel in range: the dividers of a result are offered ones and fit their registers. -/
theorem channelInRange_program (wf : t.wf = true) {c : CalcResult} (hp : c.p ∈ t.pset) (hq : c.q ∈ t.qset)
    (hr : c.r ≤ t.width.maxw) (cs : ClockSource) : (r.program t.width cs c).ChannelInRange t := by
  obtain ⟨r11, pset_lt, qset_lt⟩ := TimerParams.wf_iff.1 wf
  obtain ⟨-, -, pset_pos, qset_pos, -⟩ := TimerParams.meetsR11_iff.1 r11
  have ps : (BitVec.ofNat 16 c.p).toNat = c.p := toNat_ofNat_of_lt (pset_lt _ hp) le_rfl
  have qs : (BitVec.ofNat 16 c.q).toNat = c.q := toNat_ofNat_of_lt (qset_lt _ hq) le_rfl
  have rld : (BitVec.ofNat 16 c.r).toNat = c.r := toNat_ofNat_of_lt (Nat.lt_succ_of_le hr) t.width.maxw_lt
  refine ⟨Nat.zero_le _, ?_, ?_, ?_, ?_, TimerWidth.trunc_le .., ?_⟩
  · exact ps.symm ▸ pset_pos _ hp
  · exact qs.symm ▸ qset_pos _ hq
  · exact ps.symm ▸ List.mem_cons_of_mem _ hp
  · exact qs.symm ▸ List.mem_cons_of_mem _ hq
  · exact rld.symm ▸ hr

end

/-! ## What keeps the invariant of a state -/

section

variable {s t : State} {id : SourceId}

/-- It looks at the record, the sources, the FSMs and the events. -/
theorem State.Inv.congr (h : s.Inv) (params : t.params = s.params) (src : t.src = s.src) (high : t.fsmHigh = s.fsmHigh)
    (low : t.fsmLow = s.fsmLow) (events : t.events = s.events) : t.Inv := by
  obtain ⟨wf, sources, fsmHigh, fsmLow, stream⟩ := h
  simp only [State.Inv, FsmInv, State.reg, params, src, high, low, events] at *
  exact ⟨wf, sources, fsmHigh, fsmLow, stream⟩

theorem State.Inv.source (h : s.Inv) (id : SourceId) : SourceInv s.params.ipReset (s.params.slot id) (s.reg id) := by
  obtain ⟨-, sources, -⟩ := h
  exact sources id

/-- An FSM keeps its part where no handle is taken away. -/
theorem FsmInv.mono {f : Fsm} (h : FsmInv s f) (params : t.params = s.params)
    (handles : ∀ id, (s.reg id).cb ≠ 0 → (t.reg id).cb ≠ 0) : FsmInv t f := by
  cases f with
  | wait id =>
    obtain ⟨present, handle⟩ := h
    exact ⟨params ▸ present, handles id handle⟩
  | idle | scan => trivial

/-- The sources change, each to one that meets its part and none without its handle. -/
theorem State.Inv.with_src (h : s.Inv) {src : Vector SourceRegs 32}
    (sources : ∀ id : SourceId, SourceInv s.params.ipReset (s.params.slot id) src[id])
    (handles : ∀ id : SourceId, (s.reg id).cb ≠ 0 → src[id].cb ≠ 0) : State.Inv { s with src := src } := by
  obtain ⟨wf, -, fsmHigh, fsmLow, stream⟩ := h
  exact ⟨wf, sources, fsmHigh.mono rfl handles, fsmLow.mono rfl handles, stream⟩

theorem State.Inv.setReg (h : s.Inv) {r : SourceRegs} (source : SourceInv s.params.ipReset (s.params.slot id) r)
    (handle : (s.reg id).cb ≠ 0 → r.cb ≠ 0) : (s.setReg id r).Inv := by
  refine h.with_src (fun j => ?_) (fun j => ?_)
  · change SourceInv _ _ ((s.setReg id r).reg j)
    rw [State.reg_setReg]
    split_ifs with e
    · exact e ▸ source
    · exact h.source j
  · change _ → ((s.setReg id r).reg j).cb ≠ 0
    rw [State.reg_setReg]
    split_ifs with e
    · exact e ▸ handle
    · exact fun handle => handle

theorem State.Inv.setFsm (h : s.Inv) (l : Level) (f : Fsm) (fsm : FsmInv s f) : (s.setFsm l f).Inv := by
  obtain ⟨wf, sources, fsmHigh, fsmLow, stream⟩ := h
  cases l with
  | high => exact ⟨wf, sources, fsm.mono rfl fun _ => id, fsmLow.mono rfl fun _ => id, stream⟩
  | low => exact ⟨wf, sources, fsmHigh.mono rfl fun _ => id, fsm.mono rfl fun _ => id, stream⟩

theorem State.Inv.emit (h : s.Inv) {e : Event} (event : EventInv s.params e) : (s.emit e).Inv := by
  obtain ⟨wf, sources, fsmHigh, fsmLow, stream⟩ := h
  refine ⟨wf, sources, fsmHigh.mono rfl fun _ => id, fsmLow.mono rfl fun _ => id, fun e he => ?_⟩
  rw [State.emit_events, List.mem_append, List.mem_singleton] at he
  rcases he with old | rfl
  · exact stream e old
  · exact event

theorem State.Inv.resumeAfter (h : s.Inv) (l : Level) (id : SourceId) : (s.resumeAfter l id).Inv := h.setFsm l (.scan id.succ) trivial

/-- The scanner fires present sources with a handle only (R201). -/
theorem State.Inv.fire (h : s.Inv) (present : s.params.present id = true) (l : Level) : (s.fire l id).Inv := by
  obtain ⟨handle, e⟩ | ⟨-, e⟩ := s.fire_cases l id <;> rw [e]
  · exact (h.emit (e := .fire l id (s.reg id).cb) ⟨present, handle⟩).setFsm l (.wait id) ⟨present, handle⟩
  · exact (h.congr rfl rfl rfl rfl rfl : State.Inv { s with nocb := true }).setFsm l (.scan id.succ) trivial

/-- A write outside the channel of a present source. -/
theorem State.Inv.setFlag (h : s.Inv) (present : s.params.present id = true) (flag : Bool) : (s.setFlag id flag).Inv :=
  h.setReg ((h.source id).with_fields (present_iff.1 present) (h.source id).used_eq_ie flag _ _) fun handle => handle

/-! ## A word -/

/-- What the invariant says of the record. -/
theorem Params.wf_timer {p : Params} (wf : p.wf = true) {t : TimerParams} (timer : p.timer? id = some t) : t.wf = true := by
  simp only [Params.wf, Bool.and_eq_true, List.all_eq_true] at wf
  obtain ⟨⟨-, slots⟩, -⟩ := wf
  have := slots id (List.mem_finRange id)
  rwa [timer?_eq_some.1 timer] at this

theorem Params.wf_fpb {p : Params} (wf : p.wf = true) : p.fpb < 2 ^ 32 := by
  simp only [Params.wf, Bool.and_eq_true, decide_eq_true_eq] at wf
  obtain ⟨⟨⟨-, fpb⟩, -⟩, -⟩ := wf
  exact fpb

theorem State.Inv.channelAfter (h : s.Inv) (cs : ClockSource) (n : Nat) (id : SourceId) :
    SourceInv s.params.ipReset (s.params.slot id) (s.channelAfter cs n id) := by
  have source := h.source id
  cases timer : s.params.timer? id with
  | none => rwa [State.channelAfter_of_not_timer s n cs timer]
  | some t =>
    by_cases running : (s.reg id).counts cs = true
    · rw [State.channelAfter_of_counting s n timer running]
      rw [timer?_eq_some.1 timer] at source ⊢
      obtain ⟨used, channel⟩ := source
      refine ⟨?_, SourceRegs.ChannelInRange.iterate_edge channel n⟩
      rw [← SourceRegs.edges_eq_iterate]
      simpa using used
    · rwa [State.channelAfter_of_not_counting s n running]

theorem State.Inv.installTimer (h : s.Inv) {p : TimerParams} (timer : s.params.timer? id = some p) {m : CalcMode} {d : BitVec 16}
    {c : CalcResult} (result : calculate s.params.fpb p m d.toNat = some c) {cb : Handle} (handle : cb ≠ 0) (cs : ClockSource) :
    (s.installTimer id p.width cs cb c).Inv := by
  have ⟨wf, _⟩ := h
  have wfTimer := Params.wf_timer wf timer
  obtain ⟨r11, -⟩ := TimerParams.wf_iff.1 wfTimer
  obtain ⟨-, inRange⟩ := Proofs.calculatorResultIsInRange s.params.fpb p m d.toNat r11 (Params.wf_fpb wf) d.isLt
  obtain ⟨hp, hq, -, -, hr, -⟩ := inRange c result
  refine h.setReg ?_ fun _ => handle
  rw [timer?_eq_some.1 timer]
  exact ⟨rfl, channelInRange_program (r := s.reg id) wfTimer hp hq (hr ▸ Nat.sub_le ..) cs⟩

theorem Effect.inv {i : Instr} (e : Effect s i t) (h : s.Inv) : t.Inv := by
  cases e with
  | nop | illegal | refuse | dispRejected | cbretRejected | unregistered | tstf | query | port =>
    exact h.congr rfl rfl rfl rfl rfl
  | regt timer used handle result | regc timer _ used handle result =>
    exact (h.installTimer timer result handle _).congr rfl rfl rfl rfl rfl
  | rege slot used handle | regePortChange slot used handle =>
    exact (h.setReg ((h.source _).with_fields (by simp [slot]) rfl false _ _) fun _ => handle).congr rfl rfl rfl rfl rfl
  | @seten id v present =>
    have source := (h.source id).with_fields (present_iff.1 present) (rfl : v = v) (s.reg id).flag (s.reg id).ip (s.reg id).cb
    exact (h.setReg source fun handle => handle).congr rfl rfl rfl rfl rfl
  | @setpri id l present =>
    have source := (h.source id).with_fields (present_iff.1 present) (h.source id).used_eq_ie (s.reg id).flag l (s.reg id).cb
    exact (h.setReg source fun handle => handle).congr rfl rfl rfl rfl rfl
  | clrf present => exact (h.setFlag present false).congr rfl rfl rfl rfl rfl
  | raise present => exact h.setFlag present true
  | @portFlag v rb source =>
    have present : s.params.present rb = true := present_iff.2 (by simp [slot_of_portChange? source])
    exact (h.setFlag present true).congr rfl rfl rfl rfl rfl
  | disp => exact (h.setFsm _ (.scan 0) trivial).congr rfl rfl rfl rfl rfl
  | cbret => exact (h.resumeAfter _ _).congr rfl rfl rfl rfl rfl
  | clk => exact h.with_src (fun id => by simpa using h.channelAfter .int _ id) fun id => by simp
  | xedge => exact h.setReg (h.channelAfter .ext 1 _) fun handle => by simpa using handle

/-! ## A scanner step and a move -/

/-- The service of a TIMER source. -/
theorem State.Inv.tick (h : s.Inv) {p : TimerParams} (slot : s.params.slot id = .timer p) :
    (s.setReg id { (s.reg id).tick p.width with flag := false }).Inv := by
  refine h.setReg ?_ fun handle => handle
  rw [slot]
  exact sourceInv_tick (slot ▸ h.source id)

theorem SvcEffect.inv {l : Level} (e : SvcEffect s l t) (h : s.Inv) : t.Inv := by
  have present : ∀ {id}, s.serviceable l id = true → s.params.present id = true := fun pending => (serviceable_iff.1 pending).1
  cases e with
  | none => exact h
  | done => exact (h.setFsm l .idle trivial).emit trivial
  | skip => exact h.resumeAfter l _
  | event _ pending => exact (h.setFlag (present pending) false).fire (present pending) l
  | portChange _ pending =>
    apply State.Inv.fire
    · exact (h.setFlag (present pending) false).congr rfl rfl rfl rfl rfl
    · exact present pending
  | timerCounts _ _ slot => exact (h.tick slot).resumeAfter l _
  | timerFires _ pending slot => exact (h.tick slot).fire (present pending) l

theorem inv_of_takeMove {m : Move} (e : takeMove m s = .next t) (h : s.Inv) : t.Inv := by
  have taken : ∀ p, State.Inv { s with inbox := dropHead p s.inbox } := fun p => h.congr rfl rfl rfl rfl rfl
  obtain ⟨p, _, i, -, -, -, -, e⟩ | ⟨p, _, _, -, -, -, -, ⟨-, rfl⟩ | ⟨-, rfl⟩⟩ | ⟨l, -, -, rfl⟩ | rfl := takeMove_cases e
  · exact (effect_of_exec e).inv (taken p)
  · exact (taken p).congr rfl rfl rfl rfl rfl
  · exact (taken p).congr rfl rfl rfl rfl rfl
  · exact (effect_of_svc s l).inv h
  · exact h

end

/-! ## The event stream -/

section

variable {l m : Level} {f : Fsm} {es : List Event} {id : SourceId} {e : Event}

theorem lastEventAt_append_self (h : e.level = l) : lastEventAt l (es ++ [e]) = some e := by
  simp [lastEventAt, h]

theorem lastEventAt_append_other (h : e.level ≠ l) : lastEventAt l (es ++ [e]) = lastEventAt l es := by
  simp [lastEventAt, h]

/-- A DISP starts a scan of an idle level (R191). -/
theorem StreamInvAt.enter (h : StreamInvAt l .idle es) : StreamInvAt l (.scan 0) es := by
  unfold StreamInvAt at *
  cases last : lastEventAt l es with
  | none => trivial
  | some e =>
    rw [last] at h
    cases e with
    | done => trivial
    | fire => exact h.elim

/-- The callback of `id` returns (R193). -/
theorem StreamInvAt.goOn (h : StreamInvAt l (.wait id) es) : StreamInvAt l (.scan id.succ) es := by
  unfold StreamInvAt at *
  cases last : lastEventAt l es with
  | none => trivial
  | some e =>
    rw [last] at h
    cases e with
    | done => trivial
    | fire _ fired =>
      obtain rfl : id = fired := h
      exact Nat.lt_succ_self _

/-- The scan passes `id` (R196). -/
theorem StreamInvAt.pass (h : StreamInvAt l (.scan id.castSucc) es) : StreamInvAt l (.scan id.succ) es := by
  unfold StreamInvAt at *
  cases last : lastEventAt l es with
  | none => trivial
  | some e =>
    rw [last] at h
    cases e with
    | done => trivial
    | fire => exact Nat.lt_succ_of_lt h

/-- The scan fires `id` (R201). -/
theorem streamInvAt_fire (cb : Handle) : StreamInvAt l (.wait id) (es ++ [.fire l id cb]) := by
  unfold StreamInvAt
  rw [lastEventAt_append_self (l := l) (e := .fire l id cb) rfl]

/-- The scan ends (R195). -/
theorem streamInvAt_done : StreamInvAt l .idle (es ++ [.done l]) := by
  unfold StreamInvAt
  rw [lastEventAt_append_self (l := l) (e := .done l) rfl]
  trivial

/-- An event of another level tells nothing of this one. -/
theorem streamInvAt_append_other (h : e.level ≠ l) : StreamInvAt l f (es ++ [e]) ↔ StreamInvAt l f es := by
  simp only [StreamInvAt, lastEventAt_append_other h]

end

section

variable {s t : State} {id : SourceId}

theorem streamInv_iff : s.StreamInv ↔ ∀ l, StreamInvAt l (s.fsm l) s.events :=
  ⟨fun ⟨high, low⟩ l => by cases l <;> assumption, fun h => ⟨h .high, h .low⟩⟩

/-- It looks at the FSMs and the events. -/
theorem State.StreamInv.congr (h : s.StreamInv) (high : t.fsmHigh = s.fsmHigh) (low : t.fsmLow = s.fsmLow)
    (events : t.events = s.events) : t.StreamInv := by
  rw [State.StreamInv, high, low, events]
  exact h

theorem State.StreamInv.setFsm (h : s.StreamInv) {l : Level} {f : Fsm} (fsm : StreamInvAt l f s.events) : (s.setFsm l f).StreamInv := by
  rw [streamInv_iff] at *
  intro m
  rw [State.setFsm_fsm, State.setFsm_events]
  split_ifs with e
  · exact e ▸ fsm
  · exact h m

/-- A level moves with an event of its own. -/
theorem State.StreamInv.move (h : s.StreamInv) {l : Level} {e : Event} (level : e.level = l) (events : t.events = s.events ++ [e])
    (others : ∀ m, m ≠ l → t.fsm m = s.fsm m) (fsm : StreamInvAt l (t.fsm l) (s.events ++ [e])) : t.StreamInv := by
  rw [streamInv_iff] at *
  intro m
  rw [events]
  by_cases same : m = l
  · exact same ▸ fsm
  · rw [others m same, streamInvAt_append_other (by rwa [level, ne_comm])]
    exact h m

/-- The scan goes on past the source it stands at. -/
theorem State.StreamInv.resumeAfter (h : s.StreamInv) {l : Level} (scan : s.fsm l = .scan id.castSucc) :
    (s.resumeAfter l id).StreamInv :=
  h.setFsm (scan ▸ streamInv_iff.1 h l).pass

/-- The scan fires the source it stands at, or goes on past it (R201). -/
theorem State.StreamInv.fire (h : s.StreamInv) {l : Level} (scan : s.fsm l = .scan id.castSucc) : (s.fire l id).StreamInv := by
  obtain ⟨-, e⟩ | ⟨-, e⟩ := s.fire_cases l id <;> rw [e]
  · exact h.move (l := l) (e := .fire l id (s.reg id).cb) rfl (by simp) (fun m other => by simp [other])
      (by simpa using streamInvAt_fire _)
  · exact (h.resumeAfter scan).congr (by cases l <;> rfl) (by cases l <;> rfl) (by cases l <;> rfl)

theorem Effect.streamInv {i : Instr} (e : Effect s i t) (h : s.StreamInv) : t.StreamInv := by
  cases e with
  | @disp l accepts =>
    obtain ⟨idle, -⟩ := acceptsDispatch_iff.1 accepts
    exact (h.setFsm (idle ▸ streamInv_iff.1 h l).enter).congr rfl rfl rfl
  | @cbret l id running =>
    obtain ⟨waiting, -⟩ := runningCallback_eq_some.1 running
    exact (h.setFsm (waiting ▸ streamInv_iff.1 h l).goOn).congr rfl rfl rfl
  | clk => exact h.congr (by simp) (by simp) (by simp)
  | _ => exact h.congr rfl rfl rfl

theorem SvcEffect.streamInv {l : Level} (e : SvcEffect s l t) (h : s.StreamInv) : t.StreamInv := by
  cases e with
  | none => exact h
  | done => 
    refine h.move (l := l) (e := .done l) rfl (by simp) (fun m other => ?_) ?_
    · rw [State.endDispatch_fsm, if_neg other.symm]
    · rw [State.endDispatch_fsm, if_pos rfl]
      exact streamInvAt_done
  | skip scan => exact h.resumeAfter scan
  | event scan | portChange scan | timerFires scan =>
    apply State.StreamInv.fire
    · exact h.congr rfl rfl rfl
    · rw [← scan]
      cases l <;> rfl
  | timerCounts scan =>
    apply State.StreamInv.resumeAfter
    · exact h.congr rfl rfl rfl
    · rw [State.setReg_fsm, scan]

theorem streamInv_of_takeMove {m : Move} (e : takeMove m s = .next t) (h : s.StreamInv) : t.StreamInv := by
  obtain ⟨p, _, i, -, -, -, -, e⟩ | ⟨p, _, _, -, -, -, -, ⟨-, rfl⟩ | ⟨-, rfl⟩⟩ | ⟨l, -, -, rfl⟩ | rfl := takeMove_cases e
  · exact (effect_of_exec e).streamInv (h.congr rfl rfl rfl)
  · exact h.congr rfl rfl rfl
  · exact h.congr rfl rfl rfl
  · exact (effect_of_svc s l).streamInv h
  · exact h

/-! ## Reset -/

theorem inv_resetWith {p : Params} (wf : p.wf = true) : (State.resetWith p).Inv :=
  ⟨wf, fun id => State.resetWith_reg p id ▸ sourceInv_reset .., trivial, trivial, fun e he => by cases he⟩

theorem streamInv_resetWith (p : Params) : (State.resetWith p).StreamInv := ⟨trivial, trivial⟩

end

end Sys2Proof.Machine

namespace Sys2Proof.Proofs

open Sys2Proof.Machine

/-- Settles O57. -/
theorem resetMeetsTheInvariant : Obligations.ResetMeetsTheInvariant :=
  ⟨fun p wf => ⟨inv_resetWith wf, streamInv_resetWith p⟩, reset_eq_resetWith_rc1 ▸ inv_resetWith wf_rc1,
    reset_eq_resetWith_rc1 ▸ streamInv_resetWith _⟩

/-- Settles O58: each effect of a word and each scanner step is made of writes that keep the invariant, and the schedule plays no
part in it. -/
theorem everyStepKeepsTheInvariant : Obligations.EveryStepKeepsTheInvariant := by
  intro s t h e
  obtain ⟨-, ⟨_, rest, -, hm⟩ | ⟨_, -, -, hm⟩ | ⟨-, -, rfl⟩⟩ := step_cases e
  · exact inv_of_takeMove (s := { s with sched := rest }) hm (h.congr rfl rfl rfl rfl rfl)
  · exact inv_of_takeMove hm h
  · exact h

/-- Settles O59: a level moves alone, or with an event of its own that says where it moved. -/
theorem everyStepKeepsTheEventStreamInOrder : Obligations.EveryStepKeepsTheEventStreamInOrder := by
  intro s t h e
  obtain ⟨-, ⟨_, rest, -, hm⟩ | ⟨_, -, -, hm⟩ | ⟨-, -, rfl⟩⟩ := step_cases e
  · exact streamInv_of_takeMove (s := { s with sched := rest }) hm (h.congr rfl rfl rfl)
  · exact streamInv_of_takeMove hm h
  · exact h

end Sys2Proof.Proofs
end

section
/-! PROOFS. A whole dispatch (`44_dispatch.md` R202, R207): 33 scanner steps with their callbacks returning at once, from the first
scan position to the end. -/

namespace Sys2Proof.Machine

open Sys2Proof.Claims

/-! ## One identity, its callback returning at once -/

/-- The CBRET of the callback that the scanner at `l` has just fired, if it has fired one. -/
def returning (l : Level) (t : State) : State :=
  match t.fsm l with
  | .wait _ =>
    match exec (.cbret l) t with
    | .next u => u
    | .fault _ => t
    | .refused _ => t
  | .idle => t
  | .scan _ => t

theorem svcReturning_eq (l : Level) (s : State) : svcReturning l s = returning l (s.svc l) := rfl

/-- The scan at `l` goes on after `id`, from `v` to `t`, with the events `es`; the sources stay. -/
def PassesWith (l : Level) (id : SourceId) (es : List Event) (v t : State) : Prop :=
  t.fsm l = .scan id.succ ∧ (∀ m, m ≠ l → t.fsm m = v.fsm m) ∧ t.params = v.params ∧ t.src = v.src ∧ t.events = v.events ++ es

section

variable {s t u v : State} {l : Level} {id : SourceId}

theorem returning_of_idle (h : t.fsm l = .idle) : returning l t = t := by simp only [returning, h]

theorem returning_of_scan {i : Fin 33} (h : t.fsm l = .scan i) : returning l t = t := by simp only [returning, h]

theorem returning_of_wait (h : t.fsm l = .wait id) (outer : l = .low → t.fsmHigh = .idle) :
    returning l t = (t.resumeAfter l id).respond .ok 0 := by
  have running : t.runningCallback l = some id := runningCallback_eq_some.2 ⟨h, outer⟩
  simp only [returning, h, exec, execCbret, running]

theorem passesWith_resumeAfter (v : State) (l : Level) (id : SourceId) : PassesWith l id [] v (returning l (v.resumeAfter l id)) := by
  have scan : (v.resumeAfter l id).fsm l = .scan id.succ := by rw [State.resumeAfter_fsm, if_pos rfl]
  rw [returning_of_scan scan]
  exact ⟨scan, fun m other => by rw [State.resumeAfter_fsm, if_neg other.symm], by simp, by simp, by simp⟩

/-- A source with a handle fires and its callback returns; one without sets NOCB (R201). -/
theorem passesWith_fire (outer : l = .low → v.fsmHigh = .idle) :
    PassesWith l id (if (v.reg id).cb ≠ 0 then [.fire l id (v.reg id).cb] else []) v (returning l (v.fire l id)) := by
  obtain ⟨handle, e⟩ | ⟨zero, e⟩ := v.fire_cases l id <;> rw [e]
  · rw [if_pos handle, returning_of_wait (State.setFsm_fsm_self ..) fun low => by subst low; exact outer rfl]
    refine ⟨?_, fun m other => ?_, by simp, by simp, by simp⟩
    · rw [State.respond_fsm, State.resumeAfter_fsm, if_pos rfl]
    · rw [State.respond_fsm, State.resumeAfter_fsm, if_neg other.symm, State.setFsm_fsm_ne _ _ other, State.emit_fsm]
  · rw [if_neg (not_not.2 zero)]
    have passed := passesWith_resumeAfter { v with nocb := true } l id
    obtain ⟨scan, others, params, src, events⟩ := passed
    exact ⟨scan, fun m other => (others m other).trans (by cases m <;> rfl), params, src, events⟩

/-- The fields after the service of a TIMER source (R198), in the words of the statement. -/
theorem servicedReg_timer (p : TimerParams) (r : SourceRegs) : servicedReg (some p) r = { r.tick p.width with flag := false } := by
  rcases Nat.lt_or_ge r.lim.toNat (r.cnt.toNat + 1) with past | within
  · rw [SourceRegs.tick_of_lt p.width past]
    simp only [servicedReg, if_neg past.not_ge]
  · rw [SourceRegs.tick_of_le p.width within]
    simp only [servicedReg, if_pos within]

theorem firesNow_timer (p : TimerParams) (r : SourceRegs) : firesNow (some p) r = r.tickFires := by
  rw [Bool.eq_iff_iff, SourceRegs.tickFires_iff]
  simp only [firesNow, Bool.not_eq_true', decide_eq_false_iff_not]
  omega

theorem servicedReg_cb (p : Option TimerParams) (r : SourceRegs) : (servicedReg p r).cb = r.cb := by cases p <;> rfl

/-- A service writes its source, and then fires it or passes it (R197 to R200). -/
theorem exists_service (pending : s.serviceable l id = true) : ∃ v : State,
    v.src = s.src.set id (servicedReg (s.params.timer? id) (s.reg id)) ∧ v.params = s.params ∧ v.events = s.events
      ∧ (∀ m, v.fsm m = s.fsm m)
      ∧ s.service l id = if firesNow (s.params.timer? id) (s.reg id) then v.fire l id else v.resumeAfter l id := by
  obtain ⟨present, -⟩ := serviceable_iff.1 pending
  cases slot : s.params.slot id with
  | absent => exact absurd slot (present_iff.1 present)
  | timer p =>
    rw [timer?_eq_some.2 slot, servicedReg_timer, firesNow_timer, State.service_timer slot]
    exact ⟨s.setReg id { (s.reg id).tick p.width with flag := false }, rfl, rfl, rfl, fun m => State.setReg_fsm .., rfl⟩
  | event =>
    rw [timer?_eq_none.2 (.inr (.inl slot)), State.service_event slot]
    exact ⟨s.setFlag id false, rfl, rfl, rfl, fun m => State.setFlag_fsm .., rfl⟩
  | portChange =>
    rw [timer?_eq_none.2 (.inr (.inr slot)), State.service_portChange slot]
    exact ⟨{ s.setFlag id false with chg := s.portv ^^^ s.prev, prev := s.portv }, rfl, rfl, rfl, fun m => by cases m <;> rfl, rfl⟩

/-- `id` fires when the scanner at `l` examines it (R198 to R201). -/
def firesAt (l : Level) (s : State) (id : SourceId) : Bool :=
  s.serviceable l id && firesNow (s.params.timer? id) (s.reg id) && decide ((s.reg id).cb ≠ 0)

/-- The events of that examination. -/
def eventsAt (l : Level) (s : State) (id : SourceId) : List Event :=
  if firesAt l s id then [.fire l id (s.reg id).cb] else []

/-- The fields of `id` after it. -/
def examinedReg (l : Level) (s : State) (id : SourceId) : SourceRegs :=
  if s.serviceable l id then servicedReg (s.params.timer? id) (s.reg id) else s.reg id

/-- One scanner step and its return: the source examined is serviced or not, and the scan goes on after it. -/
theorem svcReturning_of_scan (scan : s.fsm l = .scan id.castSucc) (outer : l = .low → s.fsmHigh = .idle) :
    ∃ v : State, v.src = s.src.set id (examinedReg l s id) ∧ v.params = s.params ∧ v.events = s.events ∧ (∀ m, v.fsm m = s.fsm m)
      ∧ PassesWith l id (eventsAt l s id) v (svcReturning l s) := by
  rw [svcReturning_eq, State.svc_of_scan scan]
  cases pending : s.serviceable l id with
  | false =>
    rw [State.examine_of_not_serviceable pending]
    refine ⟨s, ?_, rfl, rfl, fun _ => rfl, ?_⟩
    · simp [examinedReg, pending, State.reg]
    · simpa [eventsAt, firesAt, pending] using passesWith_resumeAfter s l id
  | true =>
    rw [State.examine_of_serviceable pending]
    obtain ⟨v, src, params, events, fsm, service⟩ := exists_service pending
    refine ⟨v, by simp [examinedReg, pending, src], params, events, fsm, ?_⟩
    have handle : (v.reg id).cb = (s.reg id).cb := by
      have written : v.reg id = servicedReg (s.params.timer? id) (s.reg id) := by
        rw [State.reg, src]
        exact State.reg_setReg_self s id _
      rw [written, servicedReg_cb]
    rw [service]
    cases fires : firesNow (s.params.timer? id) (s.reg id) with
    | false => simpa [eventsAt, firesAt, pending, fires] using passesWith_resumeAfter v l id
    | true =>
      have passed := passesWith_fire (id := id) fun low => (fsm .high).trans (outer low)
      simpa [eventsAt, firesAt, pending, fires, handle] using passed

end

/-! ## The scan -/

/-- The FIREs of the identities below `k`. -/
def firesBefore (l : Level) (s : State) (k : Nat) : List Event :=
  ((allSources.take k).filter (firesAt l s)).map fun id => .fire l id (s.reg id).cb

/-- The dispatch that began at `l` in `s` stands at `k` in `u`: the identities below `k` have been examined. -/
def ScannedTo (l : Level) (s : State) (k : Fin 33) (u : State) : Prop :=
  u.fsm l = .scan k ∧ (∀ m, m ≠ l → u.fsm m = s.fsm m) ∧ u.params = s.params ∧ u.events = s.events ++ firesBefore l s k.val
    ∧ ∀ id : SourceId, u.reg id = if id.val < k.val then examinedReg l s id else s.reg id

section

variable {s u : State} {l : Level}

theorem firesBefore_succ (id : SourceId) : firesBefore l s (id.val + 1) = firesBefore l s id.val ++ eventsAt l s id := by
  have next : allSources.take (id.val + 1) = allSources.take id.val ++ [id] := by
    rw [List.take_succ_eq_append_getElem (by simp)]
    simp
  rw [firesBefore, next, List.filter_append, List.map_append, firesBefore, eventsAt, List.filter_singleton]
  cases firesAt l s id <;> rfl

/-- What the examination of `id` reads is what it was at the start, where `id` has not been examined. -/
theorem examined_congr {id : SourceId} (params : u.params = s.params) (reg : u.reg id = s.reg id) :
    examinedReg l u id = examinedReg l s id ∧ eventsAt l u id = eventsAt l s id := by
  have serviceable : u.serviceable l id = s.serviceable l id := by simp only [State.serviceable, params, reg]
  exact ⟨by simp only [examinedReg, serviceable, params, reg], by rw [eventsAt, firesAt, serviceable, params, reg]; rfl⟩

theorem scannedTo_zero (scan : s.fsm l = .scan 0) : ScannedTo l s 0 s :=
  ⟨scan, fun _ _ => rfl, rfl, by simp [firesBefore], fun id => by simp⟩

/-- One step of the scan. -/
theorem ScannedTo.succ {id : SourceId} (h : ScannedTo l s id.castSucc u) (outer : l = .low → s.fsmHigh = .idle) :
    ScannedTo l s id.succ (svcReturning l u) := by
  obtain ⟨scan, others, params, events, regs⟩ := h
  have fresh : u.reg id = s.reg id := (regs id).trans (if_neg (lt_irrefl _))
  obtain ⟨examined, fired⟩ := examined_congr (l := l) params fresh
  have outer' : l = .low → u.fsmHigh = .idle := fun low => (others .high (by simp [low])).trans (outer low)
  obtain ⟨v, vsrc, vparams, vevents, vfsm, scan', others', params', src', events'⟩ := svcReturning_of_scan scan outer'
  refine ⟨scan', fun m other => ?_, params'.trans (vparams.trans params), ?_, fun j => ?_⟩
  · rw [others' m other, vfsm, others m other]
  · rw [events', vevents, events, fired, List.append_assoc, Fin.val_succ, firesBefore_succ, Fin.val_castSucc]
  · have written : (svcReturning l u).reg j = if id = j then examinedReg l s id else u.reg j := by
      rw [State.reg, src', vsrc, examined]
      exact State.reg_setReg ..
    rw [written, regs j, Fin.val_succ, Fin.val_castSucc]
    by_cases same : id = j
    · subst same
      rw [if_pos rfl, if_pos (Nat.lt_succ_self _)]
    · have : j.val < id.val + 1 ↔ j.val < id.val := by
        have := Fin.val_ne_of_ne same
        omega
      simp only [same, this, if_false]

/-- And so 32 steps examine every identity. -/
theorem scannedTo_iterate (scan : s.fsm l = .scan 0) (outer : l = .low → s.fsmHigh = .idle) (k : Fin 33) :
    ScannedTo l s k ((svcReturning l)^[k.val] s) := by
  induction k using Fin.induction with
  | zero => exact scannedTo_zero scan
  | succ id ih =>
    rw [Fin.val_succ, Function.iterate_succ_apply']
    exact ih.succ outer

theorem firesBefore_all (l : Level) (s : State) : firesBefore l s 32 = firesOf l s := by
  rw [firesBefore, List.take_of_length_le (by simp)]
  rfl

end

end Sys2Proof.Machine

namespace Sys2Proof.Proofs

open Sys2Proof.Machine Sys2Proof.Claims

/-- Settles O24: the scan examines the identities one after the other, each as it was at the start, and then ends. -/
theorem dispatchServicesEveryPendingSourceInOrder : Obligations.DispatchServicesEveryPendingSourceInOrder := by
  intro s l scan outer t
  have scanned : ScannedTo l s 32 ((svcReturning l)^[32] s) := scannedTo_iterate scan outer 32
  obtain ⟨scanEnd, -, -, events, regs⟩ := scanned
  have last : t = (((svcReturning l)^[32] s).endDispatch l) := by
    have idle : (((svcReturning l)^[32] s).endDispatch l).fsm l = .idle := by rw [State.endDispatch_fsm, if_pos rfl]
    rw [← returning_of_idle idle, ← State.svc_of_scan_end scanEnd, ← svcReturning_eq]
    exact Function.iterate_succ_apply' (svcReturning l) 32 s
  rw [last]
  refine ⟨by rw [State.endDispatch_fsm, if_pos rfl], ?_, fun id => ?_⟩
  · rw [State.endDispatch_events]
    exact congrArg (· ++ _) (events.trans (by rw [← firesBefore_all]; rfl))
  · have examined : ((svcReturning l)^[32] s).reg id = examinedReg l s id := (regs id).trans (if_pos id.isLt)
    rw [State.endDispatch_reg, examined]
    exact ⟨fun pending => if_pos pending, fun quiet => if_neg (by simp [quiet])⟩

end Sys2Proof.Proofs
end
